-- ==== Sys2Proof/Word.lean ====
section
/-! DEFINITION. The plain words of the part: bytes, times of the time base, lane numbers. -/

namespace Sys2Proof

/-- A byte of a host frame or a unit frame (section 11.6). -/
abbrev Byte := BitVec 8

/-- A value of the 32-bit time base, in µs (R1). -/
abbrev Time := BitVec 32

/-- A lane number, 0 to 3 (Numbering, 00_scope.md). -/
abbrev LaneId := Fin 4

end Sys2Proof
end

