-- ==== Sys2Proof/Config.lean ====
section
/-! DEFINITION. The capacities and fixed times of the part (Capacities, 00_scope.md). The spec leaves no
result value undefined, so there is no free value here: what it leaves open (the order of events that fall
together, the input pins, the bits on CHAIN_DI) is an operand of a command or a field of State. -/

namespace Sys2Proof.Config

/-- Physical nodes, 0 to 4,095 (R16). -/
abbrev nodes : Nat := 4096

/-- Step records in one lane queue (R70). -/
abbrev laneQueueCap : Nat := 64

/-- Frames in the frame queue (R44). -/
abbrev frameQueueCap : Nat := 64

/-- Entries of the in-flight list (R52). -/
abbrev inflightCap : Nat := 32

/-- Entries of the linger list (R30). -/
abbrev lingerCap : Nat := 128

/-- Records in the result queue (R169). -/
abbrev resultCap : Nat := 128

/-- Messages in one transmit list (R196). -/
abbrev transmitCap : Nat := 32

/-- Length of a frame's shift in µs (R42). -/
abbrev shiftTime : Nat := 2

/-- CLKIN clocks in one tick of the time base: 50 MHz against 1 µs (pin description). -/
abbrev clocksPerTick : Nat := 50

/-- CLKIN clocks in one byte of a unit link: 0.8 µs (section 11.2). -/
abbrev clocksPerByte : Nat := 40

/-- CLKIN clocks in the longest gap inside a frame: 20 µs (R194). -/
abbrev gapClocks : Nat := 1000

/-- Ticks between two samples of SEATED (R176). -/
abbrev seatedPeriod : Nat := 1000

/-- The count unit of COARSE scale in µs (Step timing values and scale). -/
abbrev coarseUnit : Nat := 64

/-- Longest body of a host request (R191). -/
abbrev hostBodyCap : Nat := 512

/-- The code that stands where a record has no value (Readings). -/
abbrev noReading : Int := -8388608

/-- The largest corrected value (R160). -/
abbrev maxValue : Int := 8388607

end Sys2Proof.Config
end

