-- ==== Sys2Proof/Syntax.lean ====
section
/-! DEFINITION. The step record (R64) and the commands of the part: one constructor of Instr per row of
spec/opcode_table.json. Operands of a request or message are the fields of section 11.6 at their widths on
the wire, before any check of their range. -/

namespace Sys2Proof

/-- The function of a connection (Numbering): HI 0, LO 1, SH 2, SL 3, GD 4. -/
inductive Role where
  | hi | lo | sh | sl | gd
deriving DecidableEq, Repr

/-- The side of a connection of a FUSED step (R64). -/
inductive Side where
  | leader | follower
deriving DecidableEq, Repr

/-- One connection of a step record (R64). -/
structure Connection where
  logical : Nat
  role : Role
  side : Side
deriving DecidableEq, Repr

/-- The five step flags (R65). -/
structure StepFlags where
  fused : Bool
  quiet : Bool
  releaseNow : Bool
  adaptive : Bool
  coarse : Bool
deriving DecidableEq, Repr

/-- Who posted a step (R64). -/
inductive Origin where
  | host | unit
deriving DecidableEq, Repr

/-- A step record as a lane holds it, clamped under R66 (R64). -/
structure StepRecord where
  origin : Origin
  tag : BitVec 16
  flags : StepFlags
  function : Byte
  range : Byte
  stimulus : BitVec 24
  connections : List Connection
  settle : Nat
  minSettle : Nat
  sourceDelay : Nat
  gateWidth : Nat
  watch : Nat
  low : Option Int
  high : Option Int
  followerLow : Option Int
  followerHigh : Option Int
  repeats : Nat
  waitToken : Option (Fin 32)
  postToken : Option (Fin 32 × Byte)
deriving DecidableEq, Repr

/-- The commands of the part, one constructor per row of spec/opcode_table.json. -/
inductive Instr where
  /-- HARD_RESET (R17): assertion of RESET_N, or power-up. -/
  | hardReset
  /-- POST_STEP (R68): lane byte and the bytes of a step record. -/
  | postStep (lane : Byte) (record : List Byte)
  /-- CANCEL_LANE from the host (R80). -/
  | cancelLane (lane : Byte)
  /-- GO (R86): lane mask. -/
  | go (mask : Byte)
  /-- PAUSE (R88): lane mask. -/
  | pause (mask : Byte)
  /-- CONFIG_LANE (R84): the lane and its eight fields. -/
  | configLane (lane enabled failAction timeoutAction : Byte) (gain : BitVec 16) (offset : BitVec 24)
      (linger : BitVec 16) (lowWater lineMode : Byte)
  /-- READ_LANE (R131). -/
  | readLane (lane : Byte)
  /-- LOAD_REGION (R4). -/
  | loadRegion (region : Byte) (start size offset : BitVec 16)
  /-- READ_REGION (R8). -/
  | readRegion (region : Byte)
  /-- FIXTURE_CONFIG (R40). -/
  | fixtureConfig (nodeCount closeTime releaseTime : BitVec 16)
  /-- SET_NODE (R37). -/
  | setNode (node : BitVec 16) (bus : Byte)
  /-- FREE_NODE (R38). -/
  | freeNode (node : BitVec 16)
  /-- READ_NODE (R39). -/
  | readNode (node : BitVec 16)
  /-- TAKE_RESULTS (R174). -/
  | takeResults (count : Byte)
  /-- ACK_NOTICE (R198). -/
  | ackNotice
  /-- SET_MASK (R199). -/
  | setMask (masks : Byte)
  /-- TOKEN with operation post (R150). -/
  | tokenPost (token code : Byte)
  /-- TOKEN with operation clear (R150); the code byte is not read. -/
  | tokenClear (token code : Byte)
  /-- TOKEN with operation read (R150); the code byte is not read. -/
  | tokenRead (token code : Byte)
  /-- LINE_WRITE (R109): bits 0 to 3 SRC0 to SRC3, bits 4 to 7 GATE0 to GATE3. -/
  | lineWrite (levels : Byte)
  /-- ABORT_ALL (R180). -/
  | abortAll
  /-- CHAIN_RESET (R63). -/
  | chainReset
  /-- CLEAR (R201). -/
  | clear
  /-- UNKNOWN_REQUEST_TYPE (R191): a complete request that the port refuses on its own. -/
  | unknownRequestType (type : Byte) (body : List Byte)
  /-- HOST_REQUEST_ABANDONED (R190): HCS_N rises after these bytes of an incomplete request. -/
  | hostRequestAbandoned (received : List Byte)
  /-- POST from the unit of a lane (R69): the bytes of a step record. -/
  | post (lane : LaneId) (record : List Byte)
  /-- CANCEL_LANE from the unit of a lane (R80). -/
  | unitCancelLane (lane : LaneId)
  /-- PAUSE from the unit of a lane (R90). -/
  | unitPause (lane : LaneId)
  /-- GO from the unit of a lane (R90). -/
  | unitGo (lane : LaneId)
  /-- READY (R96). -/
  | ready (lane : LaneId) (tag : BitVec 16) (attempt : Byte)
  /-- RESULT (R100). -/
  | result (lane : LaneId) (tag : BitVec 16) (attempt : Byte) (raw : BitVec 24) (flag : Byte)
  /-- TOKEN from the unit of a lane (R149). -/
  | unitToken (lane : LaneId) (token code : Byte)
  /-- LINK_FRAME_DISCARDED (R195): a complete frame that no message fits. -/
  | linkFrameDiscarded (lane : LaneId) (type : Byte) (body : List Byte)
  /-- LINK_STOP_BIT_ERROR (R194). -/
  | linkStopBitError (lane : LaneId)
  /-- LINK_GAP_TIMEOUT (R194). -/
  | linkGapTimeout (lane : LaneId)
  /-- TRANSMIT_MESSAGE (R196): the line is free and the oldest message starts. -/
  | transmitMessage (lane : LaneId)
  /-- SEATING_CHANGE_UNSEATED (R177). -/
  | seatingChangeUnseated
  /-- SEATING_CHANGE_SEATED (R177). -/
  | seatingChangeSeated
  /-- ABORT_N_EDGE (R179): the filtered level falls. -/
  | abortNEdge
  /-- STABLE_CHANGE (R126): the filtered level of a lane takes this level. -/
  | stableChange (lane : LaneId) (level : Bool)
  /-- FRAME_SHIFT_BEGIN (R47). -/
  | frameShiftBegin
  /-- FRAME_SHIFT_END (R48): the 32 bits returned on CHAIN_DI. -/
  | frameShiftEnd (echo : BitVec 32)
  /-- SHIFT_ABANDONED_END (R50). -/
  | shiftAbandonedEnd
  /-- OPEN_ALL_SHIFT_BEGIN (R59). -/
  | openAllShiftBegin
  /-- OPEN_ALL_SHIFT_END (R59): the 32 bits returned on CHAIN_DI. -/
  | openAllShiftEnd (echo : BitVec 32)
  /-- CLOSE_COMPLETE (R53). -/
  | closeComplete
  /-- RELEASE_COMPLETE (R53). -/
  | releaseComplete
  /-- OPEN_ALL_COMPLETE (R60). -/
  | openAllComplete
  /-- LINGER_EXPIRY (R31). -/
  | lingerExpiry
  /-- ADMISSION (R74). -/
  | admission (lane : LaneId)
  /-- FIXED_SETTLE_EXPIRY (R121). -/
  | fixedSettleExpiry (lane : LaneId)
  /-- ADAPTIVE_SETTLE_END (R122): the settle test at a count tick. -/
  | adaptiveSettleEnd (lane : LaneId)
  /-- SOURCE_DELAY_EXPIRY (R98). -/
  | sourceDelayExpiry (lane : LaneId)
  /-- GATE_EXPIRY (R99). -/
  | gateExpiry (lane : LaneId)
  /-- TOKEN_TIMEOUT (R153). -/
  | tokenTimeout (lane : LaneId)
  /-- TIMEOUT (R102). -/
  | timeout (lane : LaneId)
  /-- ABORT_N_RISE (R179). -/
  | abortNRise
  /-- LINK_START_BYTE (R194): a byte of 7Eh arrives. -/
  | linkStartByte (lane : LaneId)
  /-- TRANSMIT_END (R196): the last byte of the message being sent leaves the line. -/
  | transmitEnd (lane : LaneId)
deriving DecidableEq, Repr

end Sys2Proof
end

