-- ==== Sys2Proof/Decode.lean ====
section
/-! DEFINITION. The byte layouts of section 11.6 that the part reads: step records, host request frames and
unit link frames, each total on any bytes, and the encoders written from the same tables. A request or frame
that the port or link refuses on its own decodes to the command that says so. -/

namespace Sys2Proof

namespace Bytes

/-- The byte at a position of a body; 0 beyond its end. -/
def at' (b : List Byte) (i : Nat) : Byte := b.getD i 0

/-- A 16-bit field, most significant byte first (R205). -/
def u16 (hi lo : Byte) : BitVec 16 := hi ++ lo

/-- A 24-bit field, most significant byte first (R205). -/
def u24 (hi mid lo : Byte) : BitVec 24 := (hi ++ mid) ++ lo

/-- The two bytes of a 16-bit field (R205). -/
def of16 (w : BitVec 16) : List Byte := [w.extractLsb' 8 8, w.extractLsb' 0 8]

/-- The three bytes of a 24-bit field (R205). -/
def of24 (w : BitVec 24) : List Byte := [w.extractLsb' 16 8, w.extractLsb' 8 8, w.extractLsb' 0 8]

/-- A 16-bit field at a position. -/
def u16At (b : List Byte) (i : Nat) : BitVec 16 := u16 (at' b i) (at' b (i + 1))

/-- A 24-bit field at a position. -/
def u24At (b : List Byte) (i : Nat) : BitVec 24 := u24 (at' b i) (at' b (i + 1)) (at' b (i + 2))

/-- A signed 24-bit field, two's complement (R205). -/
def s24At (b : List Byte) (i : Nat) : Int := (u24At b i).toInt

/-- A bit of a byte; bit 0 is the least significant (R205). -/
def bit (b : Byte) (i : Nat) : Bool := b.getLsbD i

/-- A byte built from its bits, bit 0 first. -/
def ofBits : List Bool → Nat
  | [] => 0
  | b :: bs => b.toNat + 2 * ofBits bs

end Bytes

open Bytes

/-! ### Codes of section 11.6 -/

/-- The role code of a connection byte (R67: a code above 4 is malformed). -/
def roleOfCode : Nat → Option Role
  | 0 => some .hi
  | 1 => some .lo
  | 2 => some .sh
  | 3 => some .sl
  | 4 => some .gd
  | _ => none

/-- The code of a role, which is also its bus index (Numbering). -/
def Role.index : Role → Nat
  | .hi => 0
  | .lo => 1
  | .sh => 2
  | .sl => 3
  | .gd => 4

/-- The side code of a connection byte (R67). -/
def sideOfCode : Nat → Option Side
  | 0 => some .leader
  | 1 => some .follower
  | _ => none

/-- The code of a side. -/
def Side.code : Side → Nat
  | .leader => 0
  | .follower => 1

/-! ### The step record -/

/-- One connection of three bytes: logical node, then role in bits 0 to 2, side in bits 3 to 4, bits 5 to 7
reserved. -/
def parseConnection (hi lo c : Byte) : Option Connection :=
  match roleOfCode (c.toNat % 8), sideOfCode (c.toNat / 8 % 4) with
  | some role, some side =>
    if c.toNat / 32 = 0 then some ⟨(u16 hi lo).toNat, role, side⟩ else none
  | _, _ => none

/-- The connection list, three bytes each (section 11.6). -/
def parseConnections : List Byte → Option (List Connection)
  | [] => some []
  | hi :: lo :: c :: rest =>
    match parseConnection hi lo c, parseConnections rest with
    | some k, some ks => some (k :: ks)
    | _, _ => none
  | _ => none

/-- The connection count a record declares (byte 35). -/
def declaredCount (b : List Byte) : Nat := (at' b 35).toNat

/-- The length of a record agrees with the connection count it declares (R67, R191, R195). -/
def recordLengthOk (b : List Byte) : Bool :=
  36 ≤ b.length && b.length == 36 + 3 * declaredCount b

/-- A token number field: present with a number above 31 is malformed (R67). -/
def parseToken (present : Bool) (b : Byte) : Option (Option (Fin 32)) :=
  if present then (if h : b.toNat < 32 then some (some ⟨b.toNat, h⟩) else none) else some none

/-- An optional limit; absent bytes are not examined (R205). -/
def parseLimit (present : Bool) (v : Int) : Option Int := if present then some v else none

/-- The checks of R67 and the clamps of R66 on the bytes of a step record, with its origin (R64). -/
def parseRecord (origin : Origin) (b : List Byte) : Option StepRecord :=
  let n := declaredCount b
  let flags := at' b 2
  let presence := at' b 18
  let rep := (at' b 31).toNat
  let watch := (u16At b 16).toNat
  if recordLengthOk b && 2 ≤ n && n ≤ 16 && flags.toNat < 32 && (at' b 4).toNat ≤ 15
      && presence.toNat < 64 && rep < 8 then
    match parseConnections (b.drop 36), parseToken (bit presence 4) (at' b 32),
        parseToken (bit presence 5) (at' b 33) with
    | some connections, some waitToken, some postToken =>
      some
        { origin, tag := u16At b 0
          flags := ⟨bit flags 0, bit flags 1, bit flags 2, bit flags 3, bit flags 4⟩
          function := at' b 3, range := at' b 4, stimulus := u24At b 5, connections
          settle := (u16At b 8).toNat, minSettle := (u16At b 10).toNat
          sourceDelay := (u16At b 12).toNat, gateWidth := (u16At b 14).toNat
          watch := if watch = 0 then 1 else watch
          low := parseLimit (bit presence 0) (s24At b 19)
          high := parseLimit (bit presence 1) (s24At b 22)
          followerLow := parseLimit (bit presence 2) (s24At b 25)
          followerHigh := parseLimit (bit presence 3) (s24At b 28)
          repeats := min rep 3
          waitToken, postToken := postToken.map (·, at' b 34) }
    | _, _, _ => none
  else none

/-- The three bytes of a connection. -/
def encodeConnection (k : Connection) : List Byte :=
  of16 (BitVec.ofNat 16 k.logical) ++ [BitVec.ofNat 8 (k.role.index + 8 * k.side.code)]

/-- An optional limit: zeros when absent (R205). -/
def encodeLimit (v : Option Int) : List Byte := of24 (BitVec.ofInt 24 (v.getD 0))

/-- The bytes of a step record (section 11.6). -/
def encodeRecord (r : StepRecord) : List Byte :=
  of16 r.tag
    ++ [BitVec.ofNat 8 (ofBits [r.flags.fused, r.flags.quiet, r.flags.releaseNow, r.flags.adaptive, r.flags.coarse])]
    ++ [r.function, r.range] ++ of24 r.stimulus
    ++ of16 (BitVec.ofNat 16 r.settle) ++ of16 (BitVec.ofNat 16 r.minSettle)
    ++ of16 (BitVec.ofNat 16 r.sourceDelay) ++ of16 (BitVec.ofNat 16 r.gateWidth)
    ++ of16 (BitVec.ofNat 16 r.watch)
    ++ [BitVec.ofNat 8 (ofBits [r.low.isSome, r.high.isSome, r.followerLow.isSome, r.followerHigh.isSome,
        r.waitToken.isSome, r.postToken.isSome])]
    ++ encodeLimit r.low ++ encodeLimit r.high ++ encodeLimit r.followerLow ++ encodeLimit r.followerHigh
    ++ [BitVec.ofNat 8 r.repeats]
    ++ [BitVec.ofNat 8 ((r.waitToken.map Fin.val).getD 0)]
    ++ [BitVec.ofNat 8 ((r.postToken.map (·.1.val)).getD 0), (r.postToken.map (·.2)).getD 0]
    ++ [BitVec.ofNat 8 r.connections.length]
    ++ r.connections.flatMap encodeConnection

/-! ### Host request frames -/

/-- The type byte of a request is one of the request table of section 11.6 (R191). -/
def requestListed (type : Byte) : Bool := 1 ≤ type.toNat && type.toNat ≤ 0x14

/-- The port's reading of a complete request (R190, R191): the command it hands on, or, for a request that the
port refuses on its own, `unknownRequestType` (a type outside the table, a body length above 512 or not the
one the type requires, a POST_STEP whose count is outside 2 to 16 or disagrees with its length, and a TOKEN
with an operation outside the three, R150). -/
def decodeRequest (type : Byte) (body : List Byte) : Instr :=
  match type.toNat, body with
  | 0x01, lane :: record =>
    if recordLengthOk record && 2 ≤ declaredCount record && declaredCount record ≤ 16 then .postStep lane record
    else .unknownRequestType type body
  | 0x02, [lane] => .cancelLane lane
  | 0x03, [mask] => .go mask
  | 0x04, [mask] => .pause mask
  | 0x05, [lane, en, fa, ta, g1, g0, o2, o1, o0, l1, l0, low, mode] =>
    .configLane lane en fa ta (u16 g1 g0) (u24 o2 o1 o0) (u16 l1 l0) low mode
  | 0x06, [lane] => .readLane lane
  | 0x07, [region, s1, s0, z1, z0, o1, o0] => .loadRegion region (u16 s1 s0) (u16 z1 z0) (u16 o1 o0)
  | 0x08, [region] => .readRegion region
  | 0x09, [n1, n0, c1, c0, r1, r0] => .fixtureConfig (u16 n1 n0) (u16 c1 c0) (u16 r1 r0)
  | 0x0A, [n1, n0, bus] => .setNode (u16 n1 n0) bus
  | 0x0B, [n1, n0] => .freeNode (u16 n1 n0)
  | 0x0C, [n1, n0] => .readNode (u16 n1 n0)
  | 0x0D, [n] => .takeResults n
  | 0x0E, [] => .ackNotice
  | 0x0F, [m] => .setMask m
  | 0x10, [token, op, code] =>
    match op.toNat with
    | 0 => .tokenPost token code
    | 1 => .tokenClear token code
    | 2 => .tokenRead token code
    | _ => .unknownRequestType type body
  | 0x11, [levels] => .lineWrite levels
  | 0x12, [] => .abortAll
  | 0x13, [] => .chainReset
  | 0x14, [] => .clear
  | _, _ => .unknownRequestType type body

/-- The port's reading of the bytes of one transaction (R190, R191): a header of type and two length bytes,
then the body. Bytes after a complete request are ignored, a length above 512 is refused at the header, and
too few bytes are an abandoned request. -/
def decodeTransaction : List Byte → Instr
  | type :: l1 :: l0 :: rest =>
    let len := (u16 l1 l0).toNat
    if Config.hostBodyCap < len then .unknownRequestType type rest
    else if rest.length < len then .hostRequestAbandoned (type :: l1 :: l0 :: rest)
    else decodeRequest type (rest.take len)
  | short => .hostRequestAbandoned short

/-- The type byte and body of the request a command stands for; none for a command that is no request. -/
def encodeRequest : Instr → Option (Byte × List Byte)
  | .postStep lane record => some (0x01, lane :: record)
  | .cancelLane lane => some (0x02, [lane])
  | .go mask => some (0x03, [mask])
  | .pause mask => some (0x04, [mask])
  | .configLane lane en fa ta gain offset linger low mode =>
    some (0x05, [lane, en, fa, ta] ++ of16 gain ++ of24 offset ++ of16 linger ++ [low, mode])
  | .readLane lane => some (0x06, [lane])
  | .loadRegion region start size offset => some (0x07, region :: of16 start ++ of16 size ++ of16 offset)
  | .readRegion region => some (0x08, [region])
  | .fixtureConfig n c r => some (0x09, of16 n ++ of16 c ++ of16 r)
  | .setNode node bus => some (0x0A, of16 node ++ [bus])
  | .freeNode node => some (0x0B, of16 node)
  | .readNode node => some (0x0C, of16 node)
  | .takeResults n => some (0x0D, [n])
  | .ackNotice => some (0x0E, [])
  | .setMask m => some (0x0F, [m])
  | .tokenPost token code => some (0x10, [token, 0, code])
  | .tokenClear token code => some (0x10, [token, 1, code])
  | .tokenRead token code => some (0x10, [token, 2, code])
  | .lineWrite levels => some (0x11, [levels])
  | .abortAll => some (0x12, [])
  | .chainReset => some (0x13, [])
  | .clear => some (0x14, [])
  | .unknownRequestType type body => some (type, body)
  | _ => none

/-! ### Unit link frames -/

/-- The link's reading of a complete frame (R194, R195): the message, or `linkFrameDiscarded` for a type that a
unit does not send, a length that is not the type's, a POST whose length disagrees with its connection count,
or a RESULT whose flag is none of the three codes (R156). -/
def decodeFrame (lane : LaneId) (type : Byte) (body : List Byte) : Instr :=
  match type.toNat, body with
  | 0x01, record => if recordLengthOk record then .post lane record else .linkFrameDiscarded lane type body
  | 0x02, [] => .unitCancelLane lane
  | 0x03, [] => .unitPause lane
  | 0x04, [] => .unitGo lane
  | 0x05, [t1, t0, attempt] => .ready lane (u16 t1 t0) attempt
  | 0x06, [t1, t0, attempt, r2, r1, r0, flag] =>
    if flag.toNat ≤ 2 then .result lane (u16 t1 t0) attempt (u24 r2 r1 r0) flag
    else .linkFrameDiscarded lane type body
  | 0x07, [token, code] => .unitToken lane token code
  | _, _ => .linkFrameDiscarded lane type body

/-- The type byte and body of the frame a unit message stands for; none for a command that is no message. -/
def encodeFrame : Instr → Option (LaneId × Byte × List Byte)
  | .post lane record => some (lane, 0x01, record)
  | .unitCancelLane lane => some (lane, 0x02, [])
  | .unitPause lane => some (lane, 0x03, [])
  | .unitGo lane => some (lane, 0x04, [])
  | .ready lane tag attempt => some (lane, 0x05, of16 tag ++ [attempt])
  | .result lane tag attempt raw flag => some (lane, 0x06, of16 tag ++ [attempt] ++ of24 raw ++ [flag])
  | .unitToken lane token code => some (lane, 0x07, [token, code])
  | .linkFrameDiscarded lane type body => some (lane, type, body)
  | _ => none

/-- spec/opcode_table.json gives none of its rows any bits, so no word spells a command. -/
def decodeTableWord (_nbits _w : Nat) : Option Instr := none

end Sys2Proof
end

