-- ==== Sys2Proof/Machine/State.lean ====
section
/-! DEFINITION. The state of the part as plain data, its values after hard reset, and the closed fault and
refusal types. Each field cites the rule of spec/ that names it. -/

namespace Sys2Proof.Machine

/-! ### Configuration, kept by CLEAR -/

/-- A region record (R2). -/
structure Region where
  valid : Bool
  start : Nat
  size : Nat
  offset : Nat
deriving DecidableEq, Repr

/-- Fail action of a lane (R83). -/
inductive FailAction where
  | continue' | halt
deriving DecidableEq, Repr

/-- Timeout action of a lane (R83). -/
inductive TimeoutAction where
  | substitute | halt
deriving DecidableEq, Repr

/-- Line mode of a lane (R83). -/
inductive LineMode where
  | auto | manual
deriving DecidableEq, Repr

/-- A lane configuration record (R83). -/
structure LaneConfig where
  enabled : Bool
  failAction : FailAction
  timeoutAction : TimeoutAction
  gain : Nat
  offset : Int
  linger : Nat
  lowWater : Nat
  lineMode : LineMode
deriving DecidableEq, Repr

/-- What the host has configured: kept by CLEAR, safety aborts and CHAIN_RESET (R3, R40, R54, R83, R199). -/
structure Fixed where
  regions : Vector Region 8
  lanes : Vector LaneConfig 4
  nodeCount : Nat
  closeTime : Nat
  releaseTime : Nat
  /-- Notice masks, bit n for source n, a set bit masks (R199). -/
  masks : BitVec 6
deriving DecidableEq, Repr

/-! ### Time and inputs -/

/-- The time base (R1) and the CLKIN clock inside the present microsecond, 0 to 49; the clock stands on a tick
of the time base when `sub` is 0 (R112). -/
structure Clock where
  time : Time
  sub : Nat
deriving DecidableEq, Repr

/-- A two-sample filter (R126, R176, R179). `due` is the model's mark that the second of two equal samples has
been taken and the filtered level has still to take their value (log entry 3). -/
structure Filter where
  last : Bool
  level : Bool
  due : Bool
deriving DecidableEq, Repr

/-- A byte on the line from a unit (R194): the CLKIN clocks until its last bit has come, counted from the byte before
it, its value, and whether its stop bit is high. -/
structure LineByte where
  wait : Nat
  value : Byte
  stop : Bool
deriving DecidableEq, Repr

/-- Input pins, their filters, the lines from the units and the echo path of the chain loop. -/
structure Inputs where
  seatedPin : Bool
  abortNPin : Bool
  stablePins : Vector Bool 4
  /-- The bytes still to come on the line from each unit, the next one first (R194; log entry 8). -/
  lines : Vector (List LineByte) 4
  /-- The difference the chain loop puts on a returning frame; 0 for an intact loop (log entry 5). -/
  loop : BitVec 32
  stable : Vector Filter 4
  seated : Filter
  abortN : Filter
  /-- Ticks since the last sample of SEATED, 0 to 999 (R176). -/
  seatedTicks : Nat
deriving DecidableEq, Repr

/-! ### The node map -/

/-- Node phase (R16). -/
inductive NodePhase where
  | opened | closing | closed | opening
deriving DecidableEq, Repr

/-- Node holder (R16). -/
inductive Holder where
  | none | lane (n : LaneId) | manual
deriving DecidableEq, Repr

/-- A node entry (R16). Its lingering flag and expiry stand in the linger list (R30). -/
structure NodeEntry where
  phase : NodePhase
  bus : Option (Fin 20)
  holder : Holder
  target : Option (Fin 20)
  due : Bool
  waiter : Option LaneId
deriving DecidableEq, Repr

/-- The value of every node entry at hard reset (R17), and what an unlisted node reads as. -/
def NodeEntry.reset : NodeEntry := ⟨.opened, none, .none, none, false, none⟩

/-- The node map (R16, R26, R27, R30): the entries that differ from `NodeEntry.reset`, keyed by node number,
rising. -/
structure NodeMap where
  entries : List (Nat × NodeEntry)
  linger : List (Nat × Time)
  order : List LaneId
  lastWinner : LaneId
deriving DecidableEq, Repr

/-! ### The relay chain engine -/

/-- A frame of the frame queue (R42, R44). -/
inductive Frame where
  | close (node : Nat) (bus : Fin 20)
  | opn (node : Nat)
deriving DecidableEq, Repr

/-- Chain state (R43). -/
inductive ChainState where
  | starting | ready | fault
deriving DecidableEq, Repr

/-- Who asked for an OPEN_ALL (R58). `checked` stands for the safety abort and CLEAR in READY. -/
inductive OpenAllKind where
  | startup | checked | unchecked | chainReset
deriving DecidableEq, Repr

/-- An OPEN_ALL asked for that has not begun its shift (R59, R61). `fresh` marks one whose next tick is still to
come; one asked for while an OPEN_ALL shifts waits for that shift's end alone. -/
structure Request where
  kind : OpenAllKind
  fresh : Bool
deriving DecidableEq, Repr

/-- What the shift in progress shifts (R42, R50). -/
inductive ShiftKind where
  | frame (f : Frame) | abandoned | openAll (k : OpenAllKind)
deriving DecidableEq, Repr

/-- A shift in progress and the time of its end (R42). -/
structure Shift where
  kind : ShiftKind
  ends : Time
deriving DecidableEq, Repr

/-- A relay operation in flight (R52). -/
inductive Operation where
  | close (node : Nat) | release (node : Nat) | openAll
deriving DecidableEq, Repr

/-- The relay chain engine (R43). -/
structure Chain where
  state : ChainState
  queue : List Frame
  /-- The waiting target list (R46): CLOSE frames as node and bus. -/
  waiting : List (Nat × Fin 20)
  shift : Option Shift
  /-- OPEN_ALLs asked for that have not begun their shift, in the order in which they shift (R59, R61). -/
  requests : List Request
  inflight : List (Operation × Time)
  /-- Lanes with a quiet hold (R51). -/
  holds : List LaneId
  /-- A quiet hold was released and no tick has come since: a frame shifts at the next tick (R51). -/
  holdOff : Bool
  /-- The seating state changed to SEATED and no tick has come since: a CLOSE shifts at the first tick after the
  change (R49). -/
  closeHoldOff : Bool
deriving DecidableEq, Repr

/-! ### Timing channels -/

/-- A timing channel (R111). `due` is the model's mark that a count tick has come at which the channel has
its expiry or its settle test still to take (log entry 3). -/
structure Channel where
  counting : Bool
  count : Nat
  coarse : Bool
  start : Option Time
  adaptive : Bool
  cap : Nat
  minimum : Nat
  due : Bool
deriving DecidableEq, Repr

/-- A channel after hard reset and CLEAR (R111). -/
def Channel.reset : Channel := ⟨false, 0, false, none, false, 0, 0, false⟩

/-! ### Tokens, readings and results -/

/-- Who posted a token (R146). -/
inductive Poster where
  | host | unit (n : LaneId) | lane (n : LaneId)
deriving DecidableEq, Repr

/-- A token (R146): absent when posted no, poster and code when posted yes. -/
abbrev Token := Option (Poster × Byte)

/-- Reading flag (R156). -/
inductive ReadingFlag where
  | ok | overrange | fault
deriving DecidableEq, Repr

/-- A reading: raw value and flag (R156). -/
structure Reading where
  raw : Int
  flag : ReadingFlag
deriving DecidableEq, Repr

/-- Verdict of a result record (R166). -/
inductive Verdict where
  | pass | fail | timeout | tokenTimeout | unitFault | rejected | aborted
deriving DecidableEq, Repr

/-- Admission error (R74). -/
inductive AdmissionError where
  | fuse | roles | limits | unmapped | nodeRange | duplicate
deriving DecidableEq, Repr

/-- A result record (R166). -/
structure ResultRecord where
  tag : BitVec 16
  lane : LaneId
  origin : Origin
  verdict : Verdict
  error : Option AdmissionError
  attempts : Nat
  value : Int
  raw : Option Int
  settle : Option Nat
  saturated : Bool
  capped : Bool
  overpost : Bool
  token : Token
  /-- Follower corrected value and follower raw value, on a FUSED step that passed the FUSE check. -/
  follower : Option (Int × Option Int)
deriving DecidableEq, Repr

/-! ### Lanes -/

/-- Lane run state (R85). -/
inductive RunState where
  | stopped | running | pausing | paused | halted | held | following
deriving DecidableEq, Repr

/-- Step phase (R92). `none` for a step kept at the head (R87), `admission` for ADMIT. -/
inductive StepPhase where
  | none | admission | fuseWait | tokenWait | claim | switch | settle | readyWait | source | gate | resultWait
  | deliver
deriving DecidableEq, Repr

/-- Resume point of a kept step (R87). -/
inductive ResumePoint where
  | fuseWait | tokenWait | claim
deriving DecidableEq, Repr

/-- What a lane or its leader keeps of one side of a step: ready received (R92, R140), the held RESULT (R100,
R142), the reading of the current attempt once taken (R142), and the value and last raw value of the record so
far (R164, R165). -/
structure SideState where
  ready : Bool
  held : Option Reading
  reading : Option Reading
  value : Int
  raw : Option Int
deriving DecidableEq, Repr

/-- A side at the start of a step. -/
def SideState.start : SideState := ⟨false, none, none, Config.noReading, none⟩

/-- The step in progress at the head of a lane queue (R70, R92). -/
structure CurStep where
  /-- The head record itself. -/
  step : StepRecord
  phase : StepPhase
  resume : Option ResumePoint
  /-- Physical node and required bus of each connection, in list order (R14, R20). -/
  nodes : List (Nat × Fin 20)
  attempt : Nat
  /-- Settle value of the attempt: FIXED count or ADAPTIVE cap (R103). -/
  settle : Nat
  leader : SideState
  follower : SideState
  /-- Token received (R155). -/
  token : Token
  attemptsUsed : Nat
  captured : Option Nat
  capped : Bool
  saturated : Bool
  overpost : Bool
  /-- The record fixed at the step's end, present in DELIVER (R166). -/
  record : Option ResultRecord
deriving DecidableEq, Repr

/-- A message from the part to a unit (section 11.6). -/
inductive UnitMessage where
  | accept (tag : BitVec 16)
  | refuse (tag : BitVec 16) (reason : Byte)
  | setup (tag : BitVec 16) (attempt : Nat) (function range : Byte) (stimulus : BitVec 24)
  | cancel (tag : BitVec 16) (attempt : Nat)
  | done (tag : BitVec 16) (verdict : Verdict)
deriving DecidableEq, Repr

/-- A link receiver (R194): IN_FRAME with the bytes taken since the start byte (their number is its byte count) and the
CLKIN clocks since the last of them. -/
inductive Receiver where
  | hunting | inFrame (taken : List Byte) (gap : Nat)
deriving DecidableEq, Repr

/-- A lane: its sequencer, queue, channels, lines and unit link. -/
structure Lane where
  run : RunState
  cur : Option CurStep
  /-- The records behind the current step, or all of them when there is none (R70). -/
  queue : List StepRecord
  pendingHold : Bool
  /-- The freeze set by the leader lane (R133). -/
  frozen : Bool
  remembered : Option RunState
  c0 : Channel
  c1 : Channel
  c2 : Channel
  c3 : Channel
  src : Bool
  gate : Bool
  rx : Receiver
  /-- The byte that has come at the present clock and is still to be taken (R194; log entry 8). -/
  arrived : Option LineByte
  tx : List UnitMessage
  /-- Clocks left of the oldest message when it is on the line (R196). -/
  sending : Option Nat
deriving DecidableEq, Repr

/-- A lane after hard reset (R70, R85, R92, R111, R110, R133, R194, R196). -/
def Lane.reset : Lane :=
  { run := .stopped, cur := none, queue := [], pendingHold := false, frozen := false, remembered := none
    c0 := .reset, c1 := .reset, c2 := .reset, c3 := .reset, src := false, gate := false
    rx := .hunting, arrived := none, tx := [], sending := none }

/-! ### Host port -/

/-- Host reply code (section 11.6). -/
inductive ReplyCode where
  | ok | format | queueFull | laneActive | busy | unseated | lineManual | chainFault | regionRange | disabled
  | overposted | none
deriving DecidableEq, Repr

/-- A reply frame: type echo, code and body (R192). -/
structure Reply where
  echo : Byte
  code : ReplyCode
  body : List Byte
deriving DecidableEq, Repr

/-- The host port: the reply to the request last taken, and whether CHAIN_RESET still waits for the end of an
OPEN_ALL before it has one (R63, R192). -/
structure Port where
  reply : Option Reply
  awaiting : Bool
deriving DecidableEq, Repr

/-! ### The whole part -/

/-- Everything of the part that work changes. -/
structure Work where
  lanes : Vector Lane 4
  nodes : NodeMap
  chain : Chain
  tokens : Vector Token 32
  results : List ResultRecord
  lastDelivering : LaneId
  /-- Pending causes of the six notice sources as sets of cause bits (R197, section 11.6). -/
  notices : Vector (BitVec 5) 6
  port : Port
  /-- The model's mark, inside one event, that a trigger of R27 or R45 has occurred (log entry 14). -/
  wake : Bool
  /-- The model's mark, inside one event, that a slot of the frame queue has been freed or an in-flight entry has
  completed, so that due processing comes before the pass (R45, R53; log entry 14). -/
  freed : Bool
deriving DecidableEq, Repr

/-- The state of the part, with the commands that wait, first in, first out, and the race key whose digits
choose among the part's own events that stand at one clock (log entries 1 and 2). -/
structure State where
  fix : Fixed
  clock : Clock
  inputs : Inputs
  work : Work
  pending : List Instr
  race : Nat
deriving DecidableEq, Repr

/-- Faults: none. The spec answers every command with an effect, a reply code or a notice cause, and no meaning
stops the part, so the type has no constructor (safe). -/
inductive Fault where
deriving DecidableEq, Repr

/-- Refusals of the model. -/
inductive Refusal where
  /-- Raised by `exec` for a command that has no meaning yet (safe); every command has one. -/
  | notModelled (mnemonic : String)
deriving DecidableEq, Repr

/-! ### Hard reset -/

/-- The lane configuration at hard reset (R83). -/
def LaneConfig.reset : LaneConfig := ⟨false, .continue', .halt, 32768, 0, 2000, 0, .auto⟩

/-- An invalid region record (R3). -/
def Region.invalid : Region := ⟨false, 0, 0, 0⟩

/-- The configuration at hard reset (R3, R17, R43, R83, R197). -/
def Fixed.reset : Fixed :=
  { regions := Vector.replicate 8 Region.invalid
    lanes := Vector.replicate 4 LaneConfig.reset
    nodeCount := 4096, closeTime := 400, releaseTime := 200, masks := 0x3F }

/-- The node map at hard reset (R17). -/
def NodeMap.reset : NodeMap := ⟨[], [], [], 3⟩

/-- The relay chain engine at hard reset, with the start-up OPEN_ALL asked for, which begins at the first tick
(R43, R62). -/
def Chain.reset : Chain :=
  { state := .starting, queue := [], waiting := [], shift := none, requests := [⟨.startup, true⟩]
    inflight := [], holds := [], holdOff := false, closeHoldOff := false }

/-- The blocks of work at hard reset (R17, R43, R70, R85, R92, R146, R169, R190, R194, R196, R197). -/
def Work.reset : Work :=
  { lanes := Vector.replicate 4 Lane.reset
    nodes := NodeMap.reset, chain := Chain.reset
    tokens := Vector.replicate 32 none
    results := [], lastDelivering := 3
    notices := Vector.replicate 6 0
    port := ⟨none, false⟩, wake := false, freed := false }

/-- Filters at hard reset (R126, R176, R179) behind the given pins and lines. -/
def Inputs.reset (seatedPin abortNPin : Bool) (stablePins : Vector Bool 4) (lines : Vector (List LineByte) 4)
    (loop : BitVec 32) : Inputs :=
  { seatedPin, abortNPin, stablePins, lines, loop
    stable := Vector.replicate 4 ⟨false, false, false⟩
    seated := ⟨false, false, false⟩
    abortN := ⟨true, true, false⟩
    seatedTicks := 0 }

/-- The part right after hard reset. The pins and the chain loop belong to the outside world: SEATED and STABLE
low, ABORT_N high, no byte on a line, an intact loop (DESIGN CHOICE, log entries 4, 5 and 8); the race key is 0 (log
entry 2). -/
def State.reset : State :=
  { fix := Fixed.reset, clock := ⟨0, 0⟩
    inputs := Inputs.reset false true (Vector.replicate 4 false) (Vector.replicate 4 []) 0
    work := Work.reset, pending := [], race := 0 }

end Sys2Proof.Machine
end

