-- ==== Sys2Proof/Machine/Ops.lean ====
section
/-! DEFINITION. The named operations that every block shares: what a command reads besides the blocks of work,
time comparisons, access to lanes, current steps and tokens, transmit lists and host replies. -/

namespace Sys2Proof.Machine

/-- What the blocks of work read and do not write: configuration, clock and inputs. -/
structure Env where
  fix : Fixed
  clock : Clock
  inputs : Inputs

/-- The surroundings of the work in a state. -/
def State.env (s : State) : Env := ⟨s.fix, s.clock, s.inputs⟩

/-- A held time x is reached at time t (R1). -/
def reached (x t : Time) : Bool := (t - x).toNat < 2 ^ 31

/-- Held time x is earlier than held time y (R1). -/
def earlier (x y : Time) : Bool := 1 ≤ (y - x).toNat && (y - x).toNat < 2 ^ 31

/-- The present time base. -/
def Env.now (e : Env) : Time := e.clock.time

/-- A lane's configuration record. -/
def Env.cfg (e : Env) (n : LaneId) : LaneConfig := e.fix.lanes[n.val]

/-- The seating state is SEATED (R176). -/
def Env.isSeated (e : Env) : Bool := e.inputs.seated.level

/-- The four lanes in ascending order. -/
def allLanes : List LaneId := [0, 1, 2, 3]

/-- The four lanes in rotating order after lane n: n + 1 round to n (R27, R172). -/
def lanesAfter (n : LaneId) : List LaneId := [n + 1, n + 2, n + 3, n]

/-! ### Lanes -/

/-- A lane of the part. -/
def Work.lane (w : Work) (n : LaneId) : Lane := w.lanes[n.val]

/-- Replaces a lane. -/
def Work.setLane (w : Work) (n : LaneId) (l : Lane) : Work := { w with lanes := w.lanes.set n.val l }

/-- Changes a lane. -/
def Work.onLane (w : Work) (n : LaneId) (f : Lane → Lane) : Work := w.setLane n (f (w.lane n))

/-- Writes a lane's current step. -/
def Work.setCur (w : Work) (n : LaneId) (c : Option CurStep) : Work := w.onLane n fun l => { l with cur := c }

/-- The number of records in a lane queue, the current step counted (R70). -/
def Lane.length (l : Lane) : Nat := l.queue.length + (if l.cur.isSome then 1 else 0)

/-- The records of a lane queue, head first (R70). -/
def Lane.records (l : Lane) : List StepRecord := (l.cur.map (·.step)).toList ++ l.queue

/-- The phase of a lane's step in progress, if it has one. -/
def Lane.curPhase (l : Lane) : StepPhase :=
  match l.cur with
  | some c => c.phase
  | none => .none

/-- The conditions of R74 hold, so the head record stands in ADMIT until its admission is taken. -/
def Lane.inAdmit (l : Lane) : Bool :=
  decide (l.run = .running) && l.cur.isNone && !l.queue.isEmpty && !l.frozen

/-- The lane after a lane: the follower of lane 0 is lane 1, of lane 2 lane 3 (chapter 7). -/
def followerOf (n : LaneId) : LaneId := n + 1

/-- The leader of a follower lane, if the lane is one (chapter 7). -/
def leaderOf (n : LaneId) : Option LaneId :=
  if n = 1 then some 0 else if n = 3 then some 2 else none

/-- The follower that a step has: lane 1 for a FUSED step of lane 0, lane 3 for one of lane 2 (chapter 7). -/
def fusedFollower (n : LaneId) (step : StepRecord) : Option LaneId :=
  if step.flags.fused = true ∧ (n = 0 ∨ n = 2) then some (followerOf n) else none

/-- The lanes that carry out a step: the lane, and its follower on a FUSED step (chapter 7). -/
def stepLanes (n : LaneId) (step : StepRecord) : List LaneId := n :: (fusedFollower n step).toList

/-- The bus of a role on a lane: lane × 5 + role index (Numbering). -/
def busOf (n : LaneId) (r : Role) : Fin 20 :=
  ⟨n.val * 5 + r.index, by cases r <;> simp only [Role.index] <;> omega⟩

/-- Drives a lane's SRC and GATE in AUTO line mode; a MANUAL lane keeps its lines (R108, R109). -/
def Work.drive (w : Work) (e : Env) (n : LaneId) (src gate : Bool) : Work :=
  if (e.cfg n).lineMode = .auto then w.onLane n fun l => { l with src, gate } else w

/-- Drives the lines of each of the lanes of a step. -/
def Work.driveAll (w : Work) (e : Env) (ns : List LaneId) (src gate : Bool) : Work :=
  ns.foldl (fun w n => w.drive e n src gate) w

/-! ### Host port -/

/-- The reply of a taken request; a CHAIN_RESET that still waited for its own has lost it (R190, R192). -/
def Work.reply (w : Work) (echo : Byte) (code : ReplyCode) (body : List Byte) : Work :=
  { w with port := ⟨some ⟨echo, code, body⟩, false⟩ }

/-! ### Answers -/

/-- What a command answers. -/
abbrev Answer := Host.Outcome State Fault Refusal

/-- A command that acts on the blocks of work alone: configuration, clock, inputs and queue stay. -/
def onWork (s : State) (f : Work → Work) : Answer := .next { s with work := f s.work }

end Sys2Proof.Machine
end

