-- ==== Sys2Proof/Machine/NodeMap.lean ====
section
/-! DEFINITION. The node map's tables: entries in one canonical form, the linger list and waiter marks
(chapter 2). -/

namespace Sys2Proof.Machine

/-! ### Entries -/

/-- The entry of a node; an unlisted node reads as after hard reset (R17). -/
def entryAt : List (Nat × NodeEntry) → Nat → NodeEntry
  | [], _ => .reset
  | (k, x) :: es, n => if k = n then x else entryAt es n

/-- Inserts a pair before the first greater key. -/
def insertEntry (n : Nat) (x : NodeEntry) : List (Nat × NodeEntry) → List (Nat × NodeEntry)
  | [] => [(n, x)]
  | (k, y) :: es => if n < k then (n, x) :: (k, y) :: es else (k, y) :: insertEntry n x es

/-- Writes the entry of a node and keeps the canonical form: an entry with the reset value is not listed. -/
def putEntry (es : List (Nat × NodeEntry)) (n : Nat) (x : NodeEntry) : List (Nat × NodeEntry) :=
  let rest := es.filter fun p => p.1 != n
  if x = .reset then rest else insertEntry n x rest

/-- Applies a function to every entry; it must keep the reset value. -/
def mapEntries (f : NodeEntry → NodeEntry) (es : List (Nat × NodeEntry)) : List (Nat × NodeEntry) :=
  (es.map fun p => (p.1, f p.2)).filter fun p => p.2 != .reset

/-- The canonical form: rising node numbers and no entry with the reset value. -/
abbrev entriesWf (es : List (Nat × NodeEntry)) : Prop :=
  (es.map (·.1)).Pairwise (· < ·) ∧ ∀ p ∈ es, p.2 ≠ .reset

/-- A node's entry in the work. -/
def Work.node (w : Work) (n : Nat) : NodeEntry := entryAt w.nodes.entries n

/-- Writes a node's entry. -/
def Work.setNode (w : Work) (n : Nat) (x : NodeEntry) : Work :=
  { w with nodes := { w.nodes with entries := putEntry w.nodes.entries n x } }

/-- Changes a node's entry. -/
def Work.onNode (w : Work) (n : Nat) (f : NodeEntry → NodeEntry) : Work := w.setNode n (f (w.node n))

/-- Changes every node entry by a function that keeps the reset value. -/
def Work.onNodes (w : Work) (f : NodeEntry → NodeEntry) : Work :=
  { w with nodes := { w.nodes with entries := mapEntries f w.nodes.entries } }

/-! ### Waiter marks and the claim order list -/

/-- Clears a lane's waiter marks on every node that carries them; a clearing starts a pass (R25, R27). -/
def Work.clearMarks (w : Work) (a : LaneId) : Work :=
  if w.nodes.entries.any fun p => decide (p.2.waiter = some a) then
    { w.onNodes (fun x => if x.waiter = some a then { x with waiter := none } else x) with wake := true }
  else w

/-- A lane leaves the claim order list and loses its marks (R25, R26). -/
def Work.leaveClaim (w : Work) (a : LaneId) : Work :=
  let w := { w with nodes := { w.nodes with order := w.nodes.order.filter (· != a) } }
  w.clearMarks a

/-- A lane joins the end of the claim order list, which starts a pass (R26, R27). -/
def Work.joinClaim (w : Work) (a : LaneId) : Work :=
  { w with nodes := { w.nodes with order := w.nodes.order.filter (· != a) ++ [a] }, wake := true }

/-! ### The linger list -/

/-- The expiry of a node's linger entry, if it has one (R16). -/
def Work.lingering (w : Work) (n : Nat) : Option Time := (w.nodes.linger.find? fun p => p.1 == n).map (·.2)

/-- Removes a node's linger entry. -/
def Work.unlinger (w : Work) (n : Nat) : Work :=
  { w with nodes := { w.nodes with linger := w.nodes.linger.filter fun p => p.1 != n } }

/-- Places an entry after every entry whose expiry is earlier than or equal to its own (R30). -/
def insertLinger (n : Nat) (t : Time) : List (Nat × Time) → List (Nat × Time)
  | [] => [(n, t)]
  | (k, u) :: ls => if earlier t u then (n, t) :: (k, u) :: ls else (k, u) :: insertLinger n t ls

/-- Sets a node's due flag. -/
def Work.setDue (w : Work) (n : Nat) : Work := w.onNode n fun x => { x with due := true }

/-- A node enters the linger list; past 128 entries the first leaves and its node becomes due (R30). -/
def Work.addLinger (w : Work) (n : Nat) (t : Time) : Work :=
  let list := insertLinger n t w.nodes.linger
  match list with
  | (k, _) :: rest =>
    if Config.lingerCap < list.length then
      ({ w with nodes := { w.nodes with linger := rest } }).setDue k
    else { w with nodes := { w.nodes with linger := list } }
  | [] => w

end Sys2Proof.Machine
end

