-- ==== Sys2Proof/Machine/Chain.lean ====
section
/-! DEFINITION. The relay chain engine's own operations (chapter 3): slots, withdrawal, due processing, quiet
holds, OPEN_ALL requests and the 32-bit frames. -/

namespace Sys2Proof.Machine

/-! ### Frames -/

/-- The 32 bits of a frame (Chain frame, section 11.6): node in bits 31 to 20, action in 19 to 18, bus in 17 to
13, the rest 0. -/
def Frame.word : Frame → BitVec 32
  | .close n b => BitVec.ofNat 32 (n * 2 ^ 20 + 1 * 2 ^ 18 + b.val * 2 ^ 13)
  | .opn n => BitVec.ofNat 32 (n * 2 ^ 20 + 2 * 2 ^ 18)

/-- The 32 bits of an OPEN_ALL. -/
def openAllWord : BitVec 32 := BitVec.ofNat 32 (3 * 2 ^ 18)

/-- The node a frame commands. -/
def Frame.node : Frame → Nat
  | .close n _ => n
  | .opn n => n

/-- An OPEN frame for the node waits in the frame queue (R16). -/
def Chain.openQueued (c : Chain) (n : Nat) : Bool := c.queue.contains (.opn n)

/-- A CLOSE frame for the node waits in the frame queue (R16). -/
def Chain.closeQueued (c : Chain) (n : Nat) : Bool :=
  c.queue.any fun f => match f with
    | .close k _ => k == n
    | .opn _ => false

/-! ### Slots -/

/-- Free slots as claims and SET_NODE count them (R45). -/
def Chain.freeSlots (c : Chain) : Nat := Config.frameQueueCap - c.queue.length - c.waiting.length

/-- A frame joins the tail of the frame queue (R44). -/
def Work.enqueue (w : Work) (f : Frame) : Work :=
  { w with chain := { w.chain with queue := w.chain.queue ++ [f] } }

/-- A frame is withdrawn from its place; its shift, if in progress, is abandoned, and the freed slot starts due
processing and a pass (R33, R45, R50). -/
def Work.withdraw (w : Work) (f : Frame) : Work :=
  { w with
    wake := true
    freed := true
    chain :=
      { w.chain with
        queue := w.chain.queue.filter (· != f)
        shift := w.chain.shift.map fun s => if s.kind = .frame f then { s with kind := .abandoned } else s } }

/-- Step 1 of R45: waiting target CLOSE frames move into free places of the queue, oldest first (R46). -/
def Work.moveWaiting (w : Work) : Work :=
  let k := Config.frameQueueCap - w.chain.queue.length
  { w with
    chain :=
      { w.chain with
        queue := w.chain.queue ++ (w.chain.waiting.take k).map fun p => .close p.1 p.2
        waiting := w.chain.waiting.drop k } }

/-- Due nodes whose phase is CLOSED, in ascending node number (R32). -/
def Work.dueNodes (w : Work) : List Nat :=
  (w.nodes.entries.filter fun p => p.2.due && decide (p.2.phase = .closed)).map (·.1)

/-- A due node's OPEN frame is queued and its due flag cleared (R32). -/
def Work.openDue (w : Work) (n : Nat) : Work := (w.onNode n fun x => { x with due := false }).enqueue (.opn n)

/-- Due processing: OPEN frames for due CLOSED nodes, one per free slot (R32; step 2 of R45). -/
def Work.dueProcessing (w : Work) : Work :=
  (w.dueNodes.take w.chain.freeSlots).foldl Work.openDue w

/-- Steps 1 and 2 of R45. -/
def Work.serveSlots (w : Work) : Work := w.moveWaiting.dueProcessing

/-- A CLOSE onto a target after a completed release: into the queue while it holds fewer than 64 frames,
otherwise onto the waiting target list (R46, R53). -/
def Work.queueTarget (w : Work) (n : Nat) (b : Fin 20) : Work :=
  if w.chain.queue.length < Config.frameQueueCap then w.enqueue (.close n b)
  else { w with chain := { w.chain with waiting := w.chain.waiting ++ [(n, b)] } }

/-! ### Quiet holds -/

/-- The chain is quiet: nothing in flight and no shift in progress (R51). -/
def Chain.isQuiet (c : Chain) : Bool := c.inflight.isEmpty && c.shift.isNone

/-- A lane takes a quiet hold (R51). -/
def Work.takeHold (w : Work) (n : LaneId) : Work :=
  if w.chain.holds.contains n then w
  else { w with chain := { w.chain with holds := w.chain.holds ++ [n] } }

/-- A lane's quiet hold is released; a frame may shift from the next tick (R51). -/
def Work.releaseHold (w : Work) (n : LaneId) : Work :=
  if w.chain.holds.contains n then
    { w with chain := { w.chain with holds := w.chain.holds.filter (· != n), holdOff := true } }
  else w

/-! ### OPEN_ALL requests -/

/-- An OPEN_ALL's shift is in progress. -/
def Chain.shiftingOpenAll (c : Chain) : Bool :=
  match c.shift with
  | some ⟨.openAll _, _⟩ => true
  | _ => false

/-- The OPEN_ALL request of a safety abort or CLEAR (R58, R61): shifted and checked in READY, where it joins an
OPEN_ALL that is shifting or still to begin; not shifted in STARTING or FAULT. -/
def Work.requestOpenAll (w : Work) : Work :=
  if w.chain.state = .ready ∧ w.chain.shiftingOpenAll = false ∧ w.chain.requests = [] then
    { w with chain := { w.chain with requests := [⟨.checked, true⟩] } }
  else w

/-- The unchecked OPEN_ALL of a chain fault, in place of any that had still to begin (R56; log entry 11). -/
def Work.requestUnchecked (w : Work) : Work :=
  { w with chain := { w.chain with requests := [⟨.unchecked, true⟩] } }

/-- A CHAIN_RESET's OPEN_ALL is shifting or still to begin. -/
def Chain.resetting (c : Chain) : Bool :=
  (c.requests.any fun r => decide (r.kind = .chainReset)) ||
    decide (c.shift.map (·.kind) = some (.openAll .chainReset))

/-- The checked OPEN_ALL of CHAIN_RESET (R61, R63): while a chain fault's shifts it waits for that shift's end alone.
That it stands behind an unchecked OPEN_ALL whose shift has still to begin is the model's choice (log entry 26). -/
def Work.requestReset (w : Work) : Work :=
  if w.chain.resetting then w
  else
    { w with
      chain :=
        { w.chain with requests := w.chain.requests ++ [⟨.chainReset, !w.chain.shiftingOpenAll⟩] } }

/-! ### The in-flight list -/

/-- Places an operation after every entry that completes earlier or at the same time (R52). -/
def insertInflight (o : Operation) (t : Time) : List (Operation × Time) → List (Operation × Time)
  | [] => [(o, t)]
  | (p, u) :: es => if earlier t u then (o, t) :: (p, u) :: es else (p, u) :: insertInflight o t es

end Sys2Proof.Machine
end

