-- ==== Sys2Proof/Machine/Flags.lean ====
section
/-! DEFINITION. The notice table (R197 to R200) and the transmit lists, whose overflow raises a cause (R196). -/

namespace Sys2Proof.Machine

/-- A notice cause, with its lane where it belongs to a lane's source (section 11.3). -/
inductive Cause where
  | unseat | seated | abort | chainFault
  | fail (n : LaneId) | halted (n : LaneId) | lowWater (n : LaneId) | stale (n : LaneId) | linkError (n : LaneId)
  | available | full
deriving DecidableEq, Repr

/-- The notice source number of a lane: LANE0 to LANE3 are sources 1 to 4 (section 11.6). -/
def laneSource (n : LaneId) : Fin 6 := ⟨n.val + 1, by omega⟩

/-- The source a cause is raised on: 0 SAFETY, 1 to 4 LANE0 to LANE3, 5 RESULTS (section 11.6). -/
def Cause.source : Cause → Fin 6
  | .unseat | .seated | .abort | .chainFault => 0
  | .fail n | .halted n | .lowWater n | .stale n | .linkError n => laneSource n
  | .available | .full => 5

/-- The bit of a cause in its source's set (section 11.6). -/
def Cause.bit : Cause → BitVec 5
  | .unseat | .fail _ | .available => 1
  | .seated | .halted _ | .full => 2
  | .abort | .lowWater _ => 4
  | .chainFault | .stale _ => 8
  | .linkError _ => 16

/-- A cause joins its source's pending set; a pending cause stays one cause (R197). -/
def Work.raise (w : Work) (c : Cause) : Work :=
  { w with notices := w.notices.set c.source.val (w.notices[c.source.val] ||| c.bit) }

/-- A cause is pending. -/
def Work.isPending (w : Work) (c : Cause) : Bool := w.notices[c.source.val] &&& c.bit != 0

/-- The set of sources with pending causes, bit n for source n (R198, R199). -/
def Work.pendingSources (w : Work) : BitVec 6 :=
  BitVec.ofNat 6 (Bytes.ofBits (w.notices.toList.map (· != 0)))

/-- NOTICE_N is driven low: an unmasked source has a pending cause (R197). -/
def noticeLow (fix : Fixed) (w : Work) : Bool := w.pendingSources &&& ~~~fix.masks != 0

/-- The first source in priority order that is not masked and has pending causes (R198). -/
def pickSource (fix : Fixed) (w : Work) : Option (Fin 6) :=
  [0, 1, 2, 3, 4, 5].find? fun i : Fin 6 => !fix.masks.getLsbD i.val && w.notices[i.val] != 0

/-- A message joins a lane's transmit list; at 32 messages it is not added and LINK_ERROR is raised (R196). -/
def Work.send (w : Work) (n : LaneId) (m : UnitMessage) : Work :=
  if (w.lane n).tx.length < Config.transmitCap then w.onLane n fun l => { l with tx := l.tx ++ [m] }
  else w.raise (.linkError n)

/-- One message joins the transmit list of each of the lanes (R139, R144). -/
def Work.sendAll (w : Work) (ns : List LaneId) (m : UnitMessage) : Work :=
  ns.foldl (fun w n => w.send n m) w

/-- LOW_WATER after a removal that takes a lane queue from a length above the mark to the mark or below (R73). -/
def Work.noteRemoval (w : Work) (e : Env) (n : LaneId) (before after : Nat) : Work :=
  let m := (e.cfg n).lowWater
  if 1 ≤ m ∧ m < before ∧ after ≤ m then w.raise (.lowWater n) else w

end Sys2Proof.Machine
end

