-- ==== Sys2Proof/Machine/Results.lean ====
section
/-! DEFINITION. Correction, limits, evaluation and result records (chapter 9). -/

namespace Sys2Proof.Machine

/-- The quotient of R159: the integer nearest to p / 32,768, halfway cases away from zero. -/
def roundQuotient (p : Int) : Int :=
  let m := (p.natAbs + 16384) / 32768
  if p < 0 then -(m : Int) else m

/-- Clamps a sum to the corrected range; true when it saturated (R160). -/
def clampValue (s : Int) : Int × Bool :=
  if Config.maxValue < s then (Config.maxValue, true)
  else if s < -Config.maxValue then (-Config.maxValue, true)
  else (s, false)

/-- Correction of a reading with flag OK by gain and offset (R158). -/
def correct (gain : Nat) (offset raw : Int) : Int × Bool := clampValue (roundQuotient (raw * gain) + offset)

/-- The limits of a side, inclusive; an absent limit passes every value (R163). -/
def withinLimits (low high : Option Int) (v : Int) : Bool :=
  (match low with
    | some l => decide (l ≤ v)
    | none => true) &&
  (match high with
    | some h => decide (v ≤ h)
    | none => true)

/-- The outcome of an attempt (R101). -/
inductive AttemptOutcome where
  | pass | fail | unitFault
deriving DecidableEq, Repr

/-- The evaluation of one side (R158 to R163): value, saturated mark and outcome. -/
def evaluateReading (cfg : LaneConfig) (low high : Option Int) (r : Reading) : Int × Bool × AttemptOutcome :=
  match r.flag with
  | .ok =>
    let v := correct cfg.gain cfg.offset r.raw
    (v.1, v.2, if withinLimits low high v.1 then .pass else .fail)
  | .overrange =>
    let v := if 0 ≤ r.raw then Config.maxValue else -Config.maxValue
    (v, true, if withinLimits low high v then .pass else .fail)
  | .fault => (Config.noReading, false, .unitFault)

/-- The outcome of a FUSED attempt from its two sides (R143). -/
def combineOutcomes (a b : AttemptOutcome) : AttemptOutcome :=
  match a, b with
  | .unitFault, _ | _, .unitFault => .unitFault
  | .pass, .pass => .pass
  | _, _ => .fail

/-- The settle value of an attempt: the posted value times 2 to the attempt number, saturating (R103, R104). -/
def settleOf (posted attempt : Nat) : Nat := min 65535 (posted * 2 ^ attempt)

/-- The result record of a step with its record so far (R166, R167). -/
def CurStep.toRecord (c : CurStep) (n : LaneId) (v : Verdict) : ResultRecord :=
  { tag := c.step.tag, lane := n, origin := c.step.origin, verdict := v, error := none
    attempts := c.attemptsUsed, value := c.leader.value, raw := c.leader.raw, settle := c.captured
    saturated := c.saturated, capped := c.capped, overpost := c.overpost, token := c.token
    follower := if c.step.flags.fused then some (c.follower.value, c.follower.raw) else none }

/-- The record of a rejected step (R79): follower fields on a FUSED step that passed the FUSE check (R166). -/
def rejectedRecord (n : LaneId) (step : StepRecord) (err : AdmissionError) : ResultRecord :=
  { tag := step.tag, lane := n, origin := step.origin, verdict := .rejected, error := some err
    attempts := 0, value := Config.noReading, raw := none, settle := none
    saturated := false, capped := false, overpost := false, token := none
    follower := if step.flags.fused ∧ err ≠ .fuse then some (Config.noReading, none) else none }

/-- The verdict halts the lane (R107). -/
def verdictHalts (cfg : LaneConfig) : Verdict → Bool
  | .fail => decide (cfg.failAction = .halt)
  | .timeout => decide (cfg.timeoutAction = .halt)
  | .unitFault => true
  | _ => false

/-- A record enters the tail of the result queue, with the causes of R175; the lane becomes the last delivering
lane (R169). -/
def Work.enterResult (w : Work) (n : LaneId) (r : ResultRecord) : Work :=
  let w1 := { w with results := w.results ++ [r], lastDelivering := n }
  let w2 := if w.results.isEmpty then w1.raise .available else w1
  if w1.results.length = Config.resultCap then w2.raise .full else w2

/-- The waiting set: the lanes whose step stands in DELIVER (R169, R170). -/
def Work.waitingSet (w : Work) : List LaneId :=
  allLanes.filter fun n => decide ((w.lane n).curPhase = .deliver)

end Sys2Proof.Machine
end

