-- ==== Sys2Proof/Machine/Layout.lean ====
section
/-! DEFINITION. The byte layouts of section 11.6 that the part sends: codes, reply frames and the filler around them,
readouts, result records and unit messages. Reserved bits and the bytes of absent fields are 0 (R205). -/

namespace Sys2Proof.Machine

open Bytes

/-- A byte from a number. -/
def byte (n : Nat) : Byte := BitVec.ofNat 8 n

/-- A set of flags as a byte, bit 0 first. -/
def flagByte (bs : List Bool) : Byte := byte (ofBits bs)

/-- A signed value as three bytes, two's complement. -/
def signed24 (v : Int) : List Byte := of24 (BitVec.ofInt 24 v)

/-- The reply code's value. -/
def ReplyCode.byte : ReplyCode → Byte
  | .ok => 0x00
  | .format => 0x01
  | .queueFull => 0x02
  | .laneActive => 0x03
  | .busy => 0x04
  | .unseated => 0x05
  | .lineManual => 0x06
  | .chainFault => 0x07
  | .regionRange => 0x08
  | .disabled => 0x09
  | .overposted => 0x0A
  | .none => 0x0B

/-- The bytes of a reply frame: type echo, code, body length, body (R192). -/
def Reply.frame (r : Reply) : List Byte :=
  [r.echo, r.code.byte] ++ of16 (BitVec.ofNat 16 r.body.length) ++ r.body

/-- The byte that HSDO carries while no reply frame is clocked out (R190, R192). -/
def hsdoFiller : Byte := 0x00

/-- Byte k of HSDO, counted from the fall of HCS_N, in the transaction whose reply starts on byte boundary `start`:
filler while the request is read and its reply formed, then the frame, then filler until HCS_N rises (R190, R192). -/
def Reply.hsdo (r : Reply) (start k : Nat) : Byte :=
  if k < start then hsdoFiller else r.frame.getD (k - start) hsdoFiller

/-- Byte k of HSDO in the transaction of the request last taken: filler alone while no reply is formed, as for a
CHAIN_RESET that still waits for an OPEN_ALL's shift end (R63, R192), and otherwise the reply from byte `start` on. -/
def Port.hsdo (p : Port) (start k : Nat) : Byte :=
  match p.reply with
  | some r => r.hsdo start k
  | none => hsdoFiller

/-- Run state code of the lane readout. -/
def RunState.code : RunState → Nat
  | .stopped => 0
  | .running => 1
  | .pausing => 2
  | .paused => 3
  | .halted => 4
  | .held => 5
  | .following => 6

/-- Step phase code of the lane readout, in the order of R92. -/
def StepPhase.code : StepPhase → Nat
  | .none => 0
  | .admission => 1
  | .fuseWait => 2
  | .tokenWait => 3
  | .claim => 4
  | .switch => 5
  | .settle => 6
  | .readyWait => 7
  | .source => 8
  | .gate => 9
  | .resultWait => 10
  | .deliver => 11

/-- Resume point code, as phase codes. -/
def ResumePoint.code : ResumePoint → Nat
  | .fuseWait => 2
  | .tokenWait => 3
  | .claim => 4

/-- Node phase code of the node readout. -/
def NodePhase.code : NodePhase → Nat
  | .opened => 0
  | .closing => 1
  | .closed => 2
  | .opening => 3

/-- Holder code of the node readout; FFh for none. -/
def Holder.code : Holder → Nat
  | .lane n => n.val
  | .manual => 4
  | .none => 255

/-- Poster code: 0 HOST, 1 to 4 UNIT 0 to 3, 5 to 8 LANE 0 to 3. -/
def Poster.code : Poster → Nat
  | .host => 0
  | .unit n => 1 + n.val
  | .lane n => 5 + n.val

/-- Verdict code, for result records and DONE. -/
def Verdict.code : Verdict → Nat
  | .pass => 0
  | .fail => 1
  | .timeout => 2
  | .tokenTimeout => 3
  | .unitFault => 4
  | .rejected => 5
  | .aborted => 6

/-- Admission error code; 0 for none. -/
def AdmissionError.code : AdmissionError → Nat
  | .fuse => 1
  | .roles => 2
  | .limits => 3
  | .unmapped => 4
  | .nodeRange => 5
  | .duplicate => 6

/-- A field that reads FFh where absent. -/
def orFF (v : Option Nat) : Byte := byte (v.getD 255)

/-! ### Readouts -/

/-- The step phase that READ_LANE shows: ADMIT while the head record's admission is untaken (R74, R131). -/
def Lane.phase (l : Lane) : StepPhase := if l.inAdmit then .admission else l.curPhase

/-- Tag and attempt of the current step, the record in ADMIT included (R92, R131). -/
def Lane.tagAttempt (l : Lane) : Option (BitVec 16 × Nat) :=
  match l.cur with
  | some c => some (c.step.tag, c.attempt)
  | none => if l.inAdmit then l.queue.head?.map fun r => (r.tag, 0) else none

/-- The lane readout of 18 bytes (R131). -/
def laneReadout (l : Lane) (n : LaneId) (stable : Bool) : List Byte :=
  [byte l.run.code, orFF (l.remembered.map RunState.code), byte l.phase.code,
    orFF (l.cur.bind fun c => c.resume.map ResumePoint.code)]
  ++ of16 ((l.tagAttempt.map (·.1)).getD 0) ++ [orFF (l.tagAttempt.map (·.2))]
  ++ [flagByte [l.c0.counting, l.c1.counting, l.c2.counting, l.c3.counting]]
  ++ of16 (BitVec.ofNat 16 l.c0.count) ++ of16 (BitVec.ofNat 16 l.c1.count)
  ++ of16 (BitVec.ofNat 16 l.c2.count) ++ of16 (BitVec.ofNat 16 l.c3.count)
  ++ [flagByte [stable, l.src, l.gate], byte n.val]

/-- The linger time that remains, 0 if the expiry is reached (R39). -/
def lingerLeft (now : Time) (t : Time) : Nat := if reached t now then 0 else (t - now).toNat

/-- The four places of the claim order list, FFh where empty. -/
def orderBytes (order : List LaneId) : List Byte :=
  [orFF (order[0]?.map Fin.val), orFF (order[1]?.map Fin.val), orFF (order[2]?.map Fin.val),
    orFF (order[3]?.map Fin.val)]

/-- The node readout of 14 bytes (R39). -/
def nodeReadout (w : Work) (now : Time) (node : BitVec 16) : List Byte :=
  let n := node.toNat
  let x := w.node n
  of16 node
  ++ [byte x.phase.code, orFF (x.bus.map Fin.val), byte x.holder.code, orFF (x.target.map Fin.val),
    orFF (x.waiter.map Fin.val)]
  ++ [flagByte [(w.lingering n).isSome, x.due, w.chain.openQueued n, w.chain.closeQueued n]]
  ++ of16 (BitVec.ofNat 16 (((w.lingering n).map (lingerLeft now)).getD 0))
  ++ orderBytes w.nodes.order

/-- The region readout (R8). That the valid byte is 1 for yes and 0 for no is the model's choice (log entry 27). -/
def regionReadout (r : Region) : List Byte :=
  [flagByte [r.valid]] ++ of16 (BitVec.ofNat 16 r.start) ++ of16 (BitVec.ofNat 16 r.size)
  ++ of16 (BitVec.ofNat 16 r.offset)

/-- The token fields and the waiting lanes (R150). That the posted byte is 1 for yes and that the waiting lanes byte has
bit n for lane n is the model's choice (log entry 28). -/
def tokenReadout (t : Token) (waiting : List LaneId) : List Byte :=
  [flagByte [t.isSome], byte ((t.map fun p => p.1.code).getD 0), (t.map (·.2)).getD 0,
    flagByte (allLanes.map fun n => waiting.contains n)]

/-- A result record of 24 bytes (R166). -/
def ResultRecord.bytes (r : ResultRecord) : List Byte :=
  of16 r.tag
  ++ [byte (r.lane.val + 4 * (if r.origin = .unit then 1 else 0) + 8 * r.follower.isSome.toNat)]
  ++ [byte r.verdict.code, byte ((r.error.map AdmissionError.code).getD 0), byte r.attempts]
  ++ [flagByte [r.saturated, r.capped, r.overpost]]
  ++ [flagByte [r.raw.isSome, r.settle.isSome, r.token.isSome, (r.follower.bind (·.2)).isSome]]
  ++ signed24 r.value ++ signed24 (r.raw.getD 0) ++ of16 (BitVec.ofNat 16 (r.settle.getD 0))
  ++ [byte ((r.token.map fun p => p.1.code).getD 0), (r.token.map (·.2)).getD 0]
  ++ signed24 ((r.follower.map (·.1)).getD 0) ++ signed24 ((r.follower.bind (·.2)).getD 0)

/-! ### Unit messages -/

/-- Type byte and body of a message to a unit (Unit frames). -/
def UnitMessage.body : UnitMessage → Byte × List Byte
  | .accept tag => (0x81, of16 tag)
  | .refuse tag reason => (0x82, of16 tag ++ [reason])
  | .setup tag attempt function range stimulus =>
    (0x83, of16 tag ++ [byte attempt, function, range] ++ of24 stimulus)
  | .cancel tag attempt => (0x84, of16 tag ++ [byte attempt])
  | .done tag verdict => (0x85, of16 tag ++ [byte verdict.code])

/-- The bytes of a message on the line: 7Eh, type, length, body (section 11.2). -/
def UnitMessage.frame (m : UnitMessage) : List Byte :=
  [0x7E, m.body.1, byte m.body.2.length] ++ m.body.2

/-- The CLKIN clocks a message takes on the line, 0.8 µs a byte (section 11.2). -/
def UnitMessage.clocks (m : UnitMessage) : Nat := Config.clocksPerByte * m.frame.length

end Sys2Proof.Machine
end

