-- ==== Sys2Proof/Machine/Channels.lean ====
section
/-! DEFINITION. The timing channels (chapter 6): count clocks, starts, stops, expiries, the settle test and what
a tick of the time base does to a channel. -/

namespace Sys2Proof.Machine

/-- The time is a count tick of the scale (R112). -/
def isCountTick (coarse : Bool) (t : Time) : Bool := !coarse || t.toNat % Config.coarseUnit == 0

/-- The first count tick at or after the present instant (R112). -/
def alignedStart (coarse : Bool) (c : Clock) : Time :=
  if c.sub = 0 ∧ isCountTick coarse c.time = true then c.time
  else if coarse then c.time - BitVec.ofNat 32 (c.time.toNat % Config.coarseUnit) + BitVec.ofNat 32 Config.coarseUnit
  else c.time + 1

/-- Starts a count-down channel with a value (R113); with 0 it has expired at the start itself. -/
def Channel.startDown (c : Clock) (coarse : Bool) (v : Nat) : Channel :=
  { counting := v != 0, count := v, coarse, start := if v = 0 then none else some (alignedStart coarse c)
    adaptive := false, cap := 0, minimum := 0, due := false }

/-- Starts C0 in ADAPTIVE mode (R122), before the settle test of the start event. -/
def Channel.startUp (c : Clock) (coarse : Bool) (cap minimum : Nat) : Channel :=
  { counting := true, count := 0, coarse, start := some (alignedStart coarse c)
    adaptive := true, cap, minimum, due := false }

/-- Stops a channel; the count stays (R114). -/
def Channel.stop (ch : Channel) : Channel :=
  if ch.counting then { ch with counting := false, start := none, due := false } else ch

/-- A count-down channel expires: STOPPED with count 0 (R113). -/
def Channel.expire (ch : Channel) : Channel :=
  { ch with counting := false, count := 0, start := none, due := false }

/-- The settle test (R122): ended not capped, ended capped, or counting on. -/
def Channel.settleTest (ch : Channel) (stable : Bool) : Option Bool :=
  if ch.minimum ≤ ch.count ∧ stable = true then some false
  else if ch.count = ch.cap then some true
  else none

/-- What a tick of the time base does to a channel (R113, R122): before the aligned start nothing; after it a
count tick lowers a count-down channel, whose last unit leaves the expiry to be taken, and raises C0 in ADAPTIVE
mode, whose settle test is then to be made, at the aligned start too. R113, R115, R124 and R132 order an expiry, a
change of STABLE and the settle test against other events at the tick. A count tick that ends nothing they do not
order: that it moves the count before every other event at its tick is the model's choice (DESIGN CHOICE, log
entry 29). -/
def Channel.tick (ch : Channel) (t : Time) : Channel :=
  match ch.counting, ch.start with
  | true, some a =>
    if isCountTick ch.coarse t then
      if t = a then { ch with due := ch.adaptive }
      else if reached a t then
        if ch.adaptive then { ch with count := ch.count + 1, due := true }
        else if 1 < ch.count then { ch with count := ch.count - 1 }
        else { ch with due := true }
      else ch
    else ch
  | _, _ => ch

/-- A count-down channel whose expiry is to be taken now (R113, R115). -/
def Channel.expiring (ch : Channel) : Bool := ch.counting && ch.due && !ch.adaptive

/-- Starts a lane's C3 with the step's watch value (R119). -/
def Work.startWatch (w : Work) (e : Env) (n : LaneId) (step : StepRecord) : Work :=
  w.onLane n fun l => { l with c3 := Channel.startDown e.clock step.flags.coarse step.watch }

/-- Stops all four channels of a lane (R120). -/
def Work.stopAll (w : Work) (n : LaneId) : Work :=
  w.onLane n fun l => { l with c0 := l.c0.stop, c1 := l.c1.stop, c2 := l.c2.stop, c3 := l.c3.stop }

/-- Stops C1 and C2 of a lane, as a follower's stop with its leader's (R130, R144). -/
def Work.stopPair (w : Work) (n : LaneId) : Work :=
  w.onLane n fun l => { l with c1 := l.c1.stop, c2 := l.c2.stop }

/-- Stops the channels of a step that ends without its expiries: all four of its lane and, on a FUSED step, C1
and C2 of the follower (R120, R142, R144). -/
def Work.stopStep (w : Work) (n : LaneId) (step : StepRecord) : Work :=
  match fusedFollower n step with
  | some f => (w.stopAll n).stopPair f
  | none => w.stopAll n

end Sys2Proof.Machine
end

