-- ==== Sys2Proof/Machine/Release.lean ====
section
/-! DEFINITION. The release of nodes (R28, R29, R38) and the claim table of one node (R22). -/

namespace Sys2Proof.Machine

/-! ### Release -/

/-- Releases one node by the table of R28. A node that is CLOSED with no target enters the linger list with the
given expiry, or becomes due when there is none (R29, R38). -/
def Work.releaseNode (w : Work) (n : Nat) (linger : Option Time) : Work :=
  let x := w.node n
  let w := w.setNode n { x with holder := .none, target := none }
  let w := { w with wake := true }
  match x.phase, x.target with
  | .closed, none =>
    match linger with
    | some t => w.addLinger n t
    | none => w.setDue n
  | .closing, none => w.setDue n
  | .opened, some b =>
    if w.chain.closeQueued n then w.withdraw (.close n b)
    else { w with chain := { w.chain with waiting := w.chain.waiting.filter fun p => p.1 != n } }
  | _, _ => w

/-- The expiry that a step's nodes linger to, if they linger: not with RELEASE_NOW, nor with a linger time of 0
(R29). -/
def lingerUntil (e : Env) (n : LaneId) (step : StepRecord) : Option Time :=
  if step.flags.releaseNow ∨ (e.cfg n).linger = 0 then none
  else some (e.now + BitVec.ofNat 32 (e.cfg n).linger)

/-- A lane's step releases its nodes in list order; only nodes it still holds are touched (R28). -/
def Work.releaseStep (w : Work) (e : Env) (n : LaneId) (c : CurStep) : Work :=
  c.nodes.foldl
    (fun w p => if (w.node p.1).holder = .lane n then w.releaseNode p.1 (lingerUntil e n c.step) else w) w

/-! ### The claim table -/

/-- The rows of the table of R22; `other` is an entry that R22 says no claim meets (log entry 13). -/
inductive ClaimRow where
  | r1 | r2 | r3 | r4 | r5 | r6 | r7 | r8 | r9 | other
deriving DecidableEq, Repr

/-- The row that a node's entry matches for a required bus (R22). -/
def Work.claimRow (w : Work) (n : Nat) (b : Fin 20) : ClaimRow :=
  let x := w.node n
  match x.phase with
  | .opened => if x.target = none then .r1 else .other
  | .opening => .r7
  | .closing => if x.due then (if x.bus = some b then .r8 else .r9) else .other
  | .closed =>
    if w.chain.openQueued n then (if x.bus = some b then .r4 else .r6)
    else if (w.lingering n).isSome then (if x.bus = some b then .r2 else .r5)
    else if x.due then (if x.bus = some b then .r3 else .r5)
    else .other

/-- The row needs a frame at the moment of the claim (R21). -/
def ClaimRow.needsFrame : ClaimRow → Bool
  | .r1 | .r5 => true
  | _ => false

/-- Takes one node for a holder by its row (R22): rows 2, 3, 4 and 8 reuse it, the others set the target to the
required bus. -/
def Work.takeNode (w : Work) (holder : Holder) (n : Nat) (b : Fin 20) : Work :=
  let x := w.node n
  match w.claimRow n b with
  | .r1 => (w.setNode n { x with holder, target := some b }).enqueue (.close n b)
  | .r2 => (w.setNode n { x with holder }).unlinger n
  | .r3 => w.setNode n { x with holder, due := false }
  | .r4 => (w.setNode n { x with holder }).withdraw (.opn n)
  | .r5 => ((w.setNode n { x with holder, due := false, target := some b }).unlinger n).enqueue (.opn n)
  | .r6 => w.setNode n { x with holder, target := some b }
  | .r7 => w.setNode n { x with holder, target := some b }
  | .r8 => w.setNode n { x with holder, due := false }
  | .r9 => w.setNode n { x with holder, target := some b }
  | .other => w.setNode n { x with holder, target := some b }

/-- The node counts as closed for the lane's claim (R23). -/
def Work.countsClosed (w : Work) (a : LaneId) (n : Nat) (b : Fin 20) : Bool :=
  let x := w.node n
  decide (x.phase = .closed ∧ x.bus = some b ∧ x.target = none ∧ x.holder = .lane a)

/-- The node is blocked for the claimant lane (R20). -/
def Work.blockedFor (w : Work) (a : LaneId) (n : Nat) : Bool :=
  let x := w.node n
  (match x.holder with
    | .manual => true
    | .lane b => decide (b ≠ a)
    | .none => false) ||
  (match x.waiter with
    | some b => decide (b ≠ a)
    | none => false)

end Sys2Proof.Machine
end

