-- ==== Sys2Proof/Machine/Sequencer.lean ====
section
/-! DEFINITION. The lane sequencer's shared operations, from the token wait to the delivery (chapters 5 to 9).
Each takes the lane and its current step and writes the step back. -/

namespace Sys2Proof.Machine

/-! ### Claim entry, tokens and the fused freeze -/

/-- The step enters CLAIM (R93): the lane joins the claim order list, which starts a pass (R26, R27). -/
def Work.enterClaim (w : Work) (n : LaneId) (c : CurStep) : Work :=
  (w.setCur n (some { c with phase := .claim, resume := none })).joinClaim n

/-- A step consumes a post: the post becomes its token received, C3 stops and it enters CLAIM (R151, R152). -/
def Work.consume (w : Work) (n : LaneId) (c : CurStep) (p : Poster × Byte) : Work :=
  (w.onLane n fun l => { l with c3 := l.c3.stop }).enterClaim n { c with token := some p }

/-- The lanes whose steps stand in TOKEN_WAIT on a token, lowest first (R150, R152). -/
def Work.waitingLanes (w : Work) (k : Fin 32) : List LaneId :=
  allLanes.filter fun n =>
    match (w.lane n).cur with
    | some c => decide (c.phase = .tokenWait ∧ c.step.waitToken = some k)
    | none => false

/-- A post reaches the token table (R147): lost on a posted token, handed to the lowest waiting lane (R152), or
standing in the token. -/
def Work.postToken (w : Work) (k : Fin 32) (p : Poster × Byte) : Work :=
  match w.tokens[k.val], w.waitingLanes k with
  | some _, _ => w
  | none, n :: _ =>
    match (w.lane n).cur with
    | some c => w.consume n c p
    | none => w
  | none, [] => { w with tokens := w.tokens.set k.val (some p) }

/-- The step enters TOKEN_WAIT (R151): a posted token is consumed at once, otherwise C3 starts. -/
def Work.enterTokenWait (w : Work) (e : Env) (n : LaneId) (c : CurStep) (k : Fin 32) : Work :=
  match w.tokens[k.val] with
  | some p => ({ w with tokens := w.tokens.set k.val none }).consume n c p
  | none => (w.setCur n (some { c with phase := .tokenWait, resume := none })).startWatch e n c.step

/-- The step goes on to its token wait, or to CLAIM when it has no wait token left to consume (R78, R134). -/
def Work.enterWaits (w : Work) (e : Env) (n : LaneId) (c : CurStep) : Work :=
  match c.step.waitToken, c.token with
  | some k, none => w.enterTokenWait e n c k
  | _, _ => w.enterClaim n c

/-- A frozen follower with no step in progress that is RUNNING, PAUSED or STOPPED enters FOLLOWING, and its
leader's step leaves FUSE_WAIT (R134). A follower made HELD by a safety abort is still frozen while the aborted FUSED
step waits in DELIVER on a full result queue (R145); that a GO to it then makes it FOLLOWING again, remembering RUNNING,
until that delivery is the model's choice (DESIGN CHOICE, log entry 30). -/
def Work.tryFollow (w : Work) (e : Env) (f : LaneId) : Work :=
  let l := w.lane f
  match leaderOf f with
  | some n =>
    if l.frozen = true ∧ l.cur = none ∧ (l.run = .running ∨ l.run = .paused ∨ l.run = .stopped) then
      let w := w.setLane f { l with run := .following, remembered := some l.run }
      match (w.lane n).cur with
      | some c => if c.phase = .fuseWait then w.enterWaits e n c else w
      | none => w
    else w
  | none => w

/-- A FUSED step enters FUSE_WAIT and freezes its follower (R134). -/
def Work.enterFuseWait (w : Work) (e : Env) (n : LaneId) (c : CurStep) : Work :=
  let w := w.setCur n (some { c with phase := .fuseWait, resume := none })
  let w := w.onLane (followerOf n) fun l => { l with frozen := true }
  w.tryFollow e (followerOf n)

/-- The pair of a fused step ends (R138): a FOLLOWING follower takes its remembered run state, and the freeze is
released. -/
def Work.endPair (w : Work) (n : LaneId) (step : StepRecord) : Work :=
  match fusedFollower n step with
  | some f =>
    w.onLane f fun l =>
      if l.run = .following then
        { l with run := l.remembered.getD .stopped, remembered := none, frozen := false }
      else { l with frozen := false }
  | none => w

/-! ### Delivery -/

/-- The run state after a delivery, steps 4 of R106 and R107. -/
def Lane.afterDelivery (l : Lane) (halts : Bool) : Lane :=
  if l.pendingHold then { l with run := .held, pendingHold := false }
  else if halts then { l with run := .halted }
  else if l.run = .pausing then { l with run := .paused }
  else l

/-- The causes that a verdict raises at the delivery (R107). -/
def Work.raiseVerdict (w : Work) (cfg : LaneConfig) (n : LaneId) (v : Verdict) : Work :=
  let w := if v = .fail then w.raise (.fail n) else w
  if verdictHalts cfg v then w.raise (.halted n) else w

/-- The delivery of a fixed record (R106): into the result queue, DONE to the unit, the head leaves the lane
queue, the run state is updated and a fused pair ends. A frozen lane may then enter FOLLOWING (R134). The next
record stands in ADMIT when R74 holds. -/
def Work.deliver (w : Work) (e : Env) (n : LaneId) (c : CurStep) (r : ResultRecord) : Work :=
  let w := w.enterResult n r
  let w := if c.step.origin = .unit then w.send n (.done c.step.tag r.verdict) else w
  let before := (w.lane n).queue.length + 1
  let w := w.setCur n none
  let w := w.noteRemoval e n before (before - 1)
  let w := w.raiseVerdict (e.cfg n) n r.verdict
  let w := w.onLane n fun l => l.afterDelivery (verdictHalts (e.cfg n) r.verdict)
  let w := w.endPair n c.step
  w.tryFollow e n

/-- A step in DELIVER offers its record: it is delivered when the result queue has a free slot, and waits
otherwise (R170). -/
def Work.offer (w : Work) (e : Env) (n : LaneId) : Work :=
  match (w.lane n).cur with
  | some c =>
    match c.phase, c.record with
    | .deliver, some r => if w.results.length < Config.resultCap then w.deliver e n c r else w
    | _, _ => w
  | none => w

/-- A step enters DELIVER with its record fixed and offers it (R105, R170). -/
def Work.enterDeliver (w : Work) (e : Env) (n : LaneId) (c : CurStep) (r : ResultRecord) : Work :=
  (w.setCur n (some { c with phase := .deliver, resume := none, record := some r })).offer e n

/-- A step completes with a verdict (R105): SRC falls, the nodes are released, the record is fixed and the step
enters DELIVER. -/
def Work.complete (w : Work) (e : Env) (n : LaneId) (c : CurStep) (v : Verdict) : Work :=
  let w := w.driveAll e (stepLanes n c.step) false false
  let w := w.releaseStep e n c
  w.enterDeliver e n c (c.toRecord n v)

/-! ### From settle to the gate's end -/

/-- The step enters SETTLE and C0 starts with the settle values of the attempt (R94, R103, R116). The answer's
second part is present when settle ends at the start event itself: captured count and capped (R121, R122). -/
def Work.startSettle (w : Work) (e : Env) (n : LaneId) (c : CurStep) : Work × Option (Nat × Bool) :=
  let c := { c with phase := .settle }
  let w := w.setCur n (some c)
  if c.step.flags.adaptive then
    let ch := Channel.startUp e.clock c.step.flags.coarse c.settle c.step.minSettle
    match ch.settleTest e.inputs.stable[n.val].level with
    | some capped => (w.onLane n fun l => { l with c0 := ch.stop }, some (0, capped))
    | none => (w.onLane n fun l => { l with c0 := ch }, none)
  else
    let ch := Channel.startDown e.clock c.step.flags.coarse c.settle
    (w.onLane n fun l => { l with c0 := ch }, if c.settle = 0 then some (0, false) else none)

/-- The record so far after settle has ended (R95, R116). -/
def CurStep.settled (c : CurStep) (captured : Nat) (capped : Bool) : CurStep :=
  { c with captured := some captured, capped }

/-- The step enters READY_WAIT with C3 started (R95). -/
def Work.enterReadyWait (w : Work) (e : Env) (n : LaneId) (c : CurStep) : Work :=
  (w.setCur n (some { c with phase := .readyWait })).startWatch e n c.step

/-- Every unit of the step has reported READY for the attempt (R95, R140). -/
def CurStep.allReady (c : CurStep) : Bool := c.leader.ready && (!c.step.flags.fused || c.follower.ready)

/-- Every side of the step has its reading for the attempt (R101, R142). -/
def CurStep.allRead (c : CurStep) : Bool :=
  c.leader.reading.isSome && (!c.step.flags.fused || c.follower.reading.isSome)

/-- A side at the start of the next attempt (R103, R143): its values of the record so far stay. -/
def SideState.next (s : SideState) : SideState := { s with ready := false, held := none, reading := none }

/-- The SETUP of the current attempt goes to every unit of the step (R94, R103, R139). -/
def Work.sendSetup (w : Work) (n : LaneId) (c : CurStep) : Work :=
  w.sendAll (stepLanes n c.step) (.setup c.step.tag c.attempt c.step.function c.step.range c.step.stimulus)

/-- The step at the start of its next attempt (R103): the attempt number, the doubled settle value, no READY and no
reading. -/
def CurStep.nextAttempt (c : CurStep) : CurStep :=
  { c with
    attempt := c.attempt + 1, settle := settleOf c.step.settle (c.attempt + 1)
    leader := c.leader.next, follower := c.follower.next }

/-- The next attempt after a FAIL with repeats left (R103): SRC falls, the nodes stay held, SETUP goes out with
the new attempt number, the settle values double and SETTLE starts. No READY has come yet, so a settle that ends
at its start leads to READY_WAIT. -/
def Work.repeatStep (w : Work) (e : Env) (n : LaneId) (c : CurStep) : Work :=
  let w := (w.driveAll e (stepLanes n c.step) false false).sendSetup n c.nextAttempt
  match w.startSettle e n c.nextAttempt with
  | (w, some (captured, capped)) => w.enterReadyWait e n (c.nextAttempt.settled captured capped)
  | (w, none) => w

/-- A side after its evaluation (R164, R165). -/
def SideState.evaluated (s : SideState) (v : Int) : SideState :=
  { s with value := v, raw := s.reading.map (·.raw) }

/-- The step after the evaluation of its attempt, and the outcome, from the leader's reading and, on a FUSED step,
the follower's (R101, R143, R164, R165). -/
def CurStep.evaluated (c : CurStep) (e : Env) (n : LaneId) (r : Reading) : CurStep × AttemptOutcome :=
  let x := evaluateReading (e.cfg n) c.step.low c.step.high r
  let c := { c with leader := c.leader.evaluated x.1, attemptsUsed := c.attemptsUsed + 1, saturated := x.2.1 }
  match c.step.flags.fused, c.follower.reading with
  | true, some fr =>
    let y := evaluateReading (e.cfg (followerOf n)) c.step.followerLow c.step.followerHigh fr
    ({ c with follower := c.follower.evaluated y.1, saturated := x.2.1 || y.2.1 }, combineOutcomes x.2.2 y.2.2)
  | _, _ => (c, x.2.2)

/-- Evaluation of the attempt's readings (R101, R143): PASS and UNIT_FAULT complete the step, FAIL completes it at
the last attempt and otherwise starts the next. -/
def Work.evaluate (w : Work) (e : Env) (n : LaneId) (c : CurStep) : Work :=
  match c.leader.reading with
  | none => w
  | some r =>
    let x := c.evaluated e n r
    match x.2 with
    | .pass => w.complete e n x.1 .pass
    | .unitFault => w.complete e n x.1 .unitFault
    | .fail => if c.attempt = c.step.repeats then w.complete e n x.1 .fail else w.repeatStep e n x.1

/-- A held RESULT is taken at the gate end (R99, R142). -/
def SideState.takeHeld (s : SideState) : SideState := { s with reading := s.held, held := none }

/-- The step as the end of the gate finds it: in RESULT_WAIT with its held RESULTs taken (R99, R142). -/
def CurStep.gateEnded (c : CurStep) : CurStep :=
  { c with phase := .resultWait, leader := c.leader.takeHeld, follower := c.follower.takeHeld }

/-- The gate ends (R99): GATE falls, the quiet hold is released, held RESULTs are taken, and the step is
evaluated or enters RESULT_WAIT with C3 started. -/
def Work.endGate (w : Work) (e : Env) (n : LaneId) (c : CurStep) : Work :=
  let w := ((w.driveAll e (stepLanes n c.step) true false).releaseHold n).setCur n (some c.gateEnded)
  if c.gateEnded.allRead then w.evaluate e n c.gateEnded else w.startWatch e n c.step

/-- Starts a channel in each lane of a step (R130). -/
def Work.startEach (w : Work) (ns : List LaneId) (f : Lane → Lane) : Work :=
  ns.foldl (fun w n => w.onLane n f) w

/-- The lines and C2 at the beginning of GATE (R99, R129, R141): GATE rises when the gate width is above 0. -/
def Work.openGate (w : Work) (e : Env) (n : LaneId) (c : CurStep) : Work :=
  (w.driveAll e (stepLanes n c.step) true (c.step.gateWidth != 0)).startEach (stepLanes n c.step) fun l =>
    { l with c2 := Channel.startDown e.clock c.step.flags.coarse c.step.gateWidth }

/-- The step that stands in GATE, with OVERPOST when its post token is already posted (R147, R148). -/
def Work.gateStep (w : Work) (c : CurStep) : CurStep :=
  match c.step.postToken with
  | some (k, _) => { c with phase := .gate, overpost := c.overpost || w.tokens[k.val].isSome }
  | none => { c with phase := .gate }

/-- The step's post token is posted with poster LANE n (R148). -/
def Work.postGate (w : Work) (n : LaneId) (step : StepRecord) : Work :=
  match step.postToken with
  | some (k, code) => w.postToken k (.lane n, code)
  | none => w

/-- GATE begins (R99, R141, R148): the lines and C2 as `openGate`, and the post token is posted; a gate width of 0
ends the gate at this event (R129). -/
def Work.beginGate (w : Work) (e : Env) (n : LaneId) (c : CurStep) : Work :=
  let g := w.gateStep c
  let w := ((w.openGate e n c).setCur n (some g)).postGate n c.step
  if c.step.gateWidth = 0 then w.endGate e n g else w

/-- The source delay has run out (R98, R117): GATE begins at once, or for a QUIET step at the report of quiet,
which comes at once when the chain is quiet (R51). -/
def Work.endSourceDelay (w : Work) (e : Env) (n : LaneId) (c : CurStep) : Work :=
  if c.step.flags.quiet then
    let w := w.takeHold n
    if w.chain.isQuiet then w.beginGate e n c else w
  else w.beginGate e n c

/-- The phase, SRC and C1 at the beginning of SOURCE (R98, R141), on both lanes of a fused pair. -/
def Work.openSource (w : Work) (e : Env) (n : LaneId) (c : CurStep) : Work :=
  ((w.setCur n (some { c with phase := .source })).driveAll e (stepLanes n c.step) true false).startEach
    (stepLanes n c.step) fun l => { l with c1 := Channel.startDown e.clock c.step.flags.coarse c.step.sourceDelay }

/-- SOURCE begins (R98, R141): SRC rises and C1 starts; a source delay of 0 has run out at once (R117). -/
def Work.beginSource (w : Work) (e : Env) (n : LaneId) (c : CurStep) : Work :=
  let w := w.openSource e n c
  if c.step.sourceDelay = 0 then w.endSourceDelay e n { c with phase := .source } else w

/-- Settle has ended (R95, R140): SOURCE begins when every READY has come, otherwise READY_WAIT. -/
def Work.endSettle (w : Work) (e : Env) (n : LaneId) (c : CurStep) (captured : Nat) (capped : Bool) : Work :=
  let c := c.settled captured capped
  if c.allReady then w.beginSource e n c else w.enterReadyWait e n c

/-- SWITCH ends (R94): SETTLE begins. -/
def Work.endSwitch (w : Work) (e : Env) (n : LaneId) (c : CurStep) : Work :=
  match w.startSettle e n c with
  | (w, some (captured, capped)) => w.endSettle e n { c with phase := .settle } captured capped
  | (w, none) => w

/-- SWITCH ends when every node of the claim counts as closed (R23, R94). -/
def Work.checkSwitch (w : Work) (e : Env) (n : LaneId) : Work :=
  match (w.lane n).cur with
  | some c =>
    if c.phase = .switch ∧ (c.nodes.all fun p => w.countsClosed n p.1 p.2) = true then w.endSwitch e n c else w
  | none => w

/-! ### Claims and the arbiter -/

/-- Waiter marks of a failed claim on its blocked nodes (R24); the second part says that a mark was moved. -/
def Work.placeMarks (w : Work) (a : LaneId) (ns : List Nat) : Work × Bool :=
  ns.foldl
    (fun (p : Work × Bool) n =>
      let x := p.1.node n
      let marked := p.1.setNode n { x with waiter := some a }
      match x.waiter with
      | none => (marked, p.2)
      | some b =>
        if b = a then p
        else if p.1.nodes.order.idxOf a < p.1.nodes.order.idxOf b then (marked, true)
        else p) (w, false)

/-- The node map's side of a claim that does not fail (R22): every node of the step by its row in list order, the
claimant's marks cleared, the lane out of the claim order list and the last winner. Its `wake` says that a mark was
cleared or a frame withdrawn, and its `freed` that a frame was. -/
def Work.grantNodes (w : Work) (a : LaneId) (c : CurStep) : Work :=
  let w := { w with wake := false, freed := false }
  let w := (c.nodes.foldl (fun (w : Work) p => w.takeNode (.lane a) p.1 p.2) w).leaveClaim a
  { w with nodes := { w.nodes with lastWinner := a } }

/-- The step of a claim that is taken: in SWITCH with ready received no (R94, R140). -/
def CurStep.claimed (c : CurStep) : CurStep :=
  { c with
    phase := .switch, leader := { c.leader with ready := false }, follower := { c.follower with ready := false } }

/-- A claim is taken (R22, R94): the nodes are granted, freed slots are handed out (R33, R45), SETUP goes out and the
step enters SWITCH, which ends at once when every node was reused. The second part says whether a further pass
follows. -/
def Work.takeClaim (w : Work) (e : Env) (a : LaneId) (c : CurStep) : Work × Bool :=
  let g := w.grantNodes a c
  let w := if g.freed then g.serveSlots else g
  let w := ({ w with wake := false, freed := false }).setCur a (some c.claimed)
  ((w.sendSetup a c).checkSwitch e a, g.wake)

/-- The claim of one lane in a pass (R20, R21, R27). -/
def Work.tryClaim (w : Work) (e : Env) (a : LaneId) : Work × Bool :=
  match (w.lane a).cur with
  | some c =>
    if (w.lane a).run = .running ∧ c.phase = .claim ∧ a ∈ w.nodes.order then
      let blocked := (c.nodes.map (·.1)).filter (w.blockedFor a)
      if blocked ≠ [] then w.placeMarks a blocked
      else if w.chain.freeSlots < c.nodes.countP (fun p => (w.claimRow p.1 p.2).needsFrame) then (w, false)
      else w.takeClaim e a c
    else (w, false)
  | none => (w, false)

/-- One pass of the claim arbiter in rotating order after the last winner (R27). -/
def Work.pass (w : Work) (e : Env) : Work × Bool :=
  (lanesAfter w.nodes.lastWinner).foldl
    (fun (p : Work × Bool) a =>
      let q := p.1.tryClaim e a
      (q.1, p.2 || q.2)) (w, false)

/-- Passes of the claim arbiter, each starting the next while marks are cleared or moved or slots freed (R27).
A pass that starts another has a claim taken or a mark moved to a lane earlier in the claim order list, so the
passes of one event end well before the bound. -/
def Work.arbitrate (e : Env) : Nat → Work → Work
  | 0, w => w
  | k + 1, w =>
    match w.pass e with
    | (w, true) => Work.arbitrate e k w
    | (w, false) => w

/-- A bound on the passes of one event: four claims taken, and between them each of the 64 connections of four
steps has its mark moved at most three times. -/
def passBound : Nat := 1024

/-- The end of an event in which a trigger of R27 or R45 occurred. Where a slot freed or an entry completed, slots are
handed out and the claim arbiter then makes its passes (R45, R53); otherwise the passes come first and find a node
that has become due still due, and due processing follows (R32, R38). -/
def Work.finish (w : Work) (e : Env) : Work :=
  if w.wake then
    let v := { w with wake := false, freed := false }
    let v := if w.freed then v.serveSlots.arbitrate e passBound else (v.arbitrate e passBound).serveSlots
    { v with wake := false, freed := false }
  else w

/-- The report of quiet to every lane that holds and waits for it, when the chain is quiet (R51, R98). -/
def Work.reportQuiet (w : Work) (e : Env) : Work :=
  if w.chain.isQuiet then
    w.chain.holds.foldl
      (fun w n =>
        match (w.lane n).cur with
        | some c => if c.phase = .source then w.beginGate e n c else w
        | none => w) w
  else w

/-- The end of an event that may have made the chain quiet: after the pass, quiet is reported (R53), and what
that ends is seen through in turn. -/
def Work.finishQuiet (w : Work) (e : Env) : Work := ((w.finish e).reportQuiet e).finish e

/-! ### Aborts -/

/-- A step past CLAIM is aborted (R81, R144, R184): CANCEL to the units, lines low in AUTO mode, channels
stopped, the quiet hold released, the held RESULT dropped, nodes released and the record fixed with verdict
ABORTED. The step stands in DELIVER and has still to offer its record. -/
def Work.abortStep (w : Work) (e : Env) (n : LaneId) (c : CurStep) : Work :=
  let lanes := stepLanes n c.step
  let w := w.sendAll lanes (.cancel c.step.tag c.attempt)
  let w := w.driveAll e lanes false false
  let w := w.stopStep n c.step
  let w := w.releaseHold n
  let w := w.releaseStep e n c
  let c := { c with leader := c.leader.next, follower := c.follower.next }
  w.setCur n (some { c with phase := .deliver, resume := none, record := some (c.toRecord n .aborted) })

/-- A step is kept at the head with a resume point (R87): its phase reads NONE, its channels stop, and the lane
leaves the claim order list and loses its marks. -/
def Work.keepStep (w : Work) (n : LaneId) (c : CurStep) (p : ResumePoint) : Work :=
  let w := w.stopAll n
  let w := w.setCur n (some { c with phase := .none, resume := some p })
  w.leaveClaim n

/-- The phase is one from SWITCH to RESULT_WAIT, in which an abort sends CANCEL (R81, R184). -/
def StepPhase.pastClaim : StepPhase → Bool
  | .switch | .settle | .readyWait | .source | .gate | .resultWait => true
  | _ => false

/-- The follower's freeze is released without FOLLOWING having come (R136). -/
def Work.unfreeze (w : Work) (n : LaneId) (step : StepRecord) : Work :=
  match fusedFollower n step with
  | some f => w.onLane f fun l => { l with frozen := false }
  | none => w

/-- The safety abort at one lane (R183, R145), before any record is offered. -/
def Work.abortLane (w : Work) (e : Env) (n : LaneId) : Work :=
  let l := w.lane n
  let held (w : Work) : Work := w.onLane n fun l => { l with run := .held, remembered := none }
  match l.cur with
  | none => if l.run = .stopped then w else held w
  | some c =>
    if c.phase.pastClaim then (w.abortStep e n c).onLane n fun l => { l with pendingHold := true }
    else if c.phase = .deliver then w.onLane n fun l => { l with pendingHold := true }
    else
      let point :=
        if c.step.flags.fused then ResumePoint.fuseWait
        else match c.phase with
          | .fuseWait => .fuseWait
          | .tokenWait => .tokenWait
          | .claim => .claim
          | _ => c.resume.getD .claim
      held ((w.keepStep n c point).unfreeze n c.step)

/-- The safety abort (R182): the cause of its trigger, every lane by R183, an OPEN_ALL asked for; then the
aborted steps offer their records (R184, R185). -/
def Work.safetyAbort (w : Work) (e : Env) (cause : Cause) : Work :=
  let w := w.raise cause
  let w := allLanes.foldl (fun w n => w.abortLane e n) w
  let w := w.requestOpenAll
  allLanes.foldl (fun w n => w.offer e n) w

end Sys2Proof.Machine
end

