-- ==== Sys2Proof/Machine/ChainEvents.lean ====
section
/-! DEFINITION. The events of the relay chain engine and of the linger list: shifts beginning and ending,
completions, LINGER_EXPIRY. An event takes place only where its condition holds (log entry 3). -/

namespace Sys2Proof.Machine

/-! ### Shifts -/

/-- The head frame may begin its shift now: the conditions of R47, on a tick, and after the tick of a released hold
(R51) or, for a CLOSE, of a change to SEATED (R49). -/
def canBeginShift (e : Env) (w : Work) (f : Frame) : Bool :=
  decide (e.clock.sub = 0) && w.chain.shift.isNone && decide (w.chain.state = .ready)
    && decide (w.chain.inflight.length < Config.inflightCap)
    && (w.chain.inflight.all fun p => decide (p.1 ≠ .openAll))
    && w.chain.holds.isEmpty && !w.chain.holdOff
    && (match f with
      | .close n _ =>
        e.isSeated && !w.chain.closeHoldOff && decide ((w.node n).phase = .opened)
      | .opn _ => true)

/-- The end of a shift that begins now (R42). -/
def Env.shiftEnd (e : Env) : Time := e.now + BitVec.ofNat 32 Config.shiftTime

/-- FRAME_SHIFT_BEGIN (R47). -/
def execFrameShiftBegin (s : State) : Answer :=
  onWork s fun w =>
    match w.chain.queue with
    | f :: _ =>
      if canBeginShift s.env w f then
        { w with chain := { w.chain with shift := some ⟨.frame f, s.env.shiftEnd⟩ } }
      else w
    | [] => w

/-- The node map's side of a frame's shift end (R18). -/
def Work.frameShifted (w : Work) : Frame → Work
  | .close n b =>
    let x := w.node n
    if x.phase = .opened then w.setNode n { x with phase := .closing, bus := some b, target := none } else w
  | .opn n =>
    let x := w.node n
    if x.phase = .closed then w.setNode n { x with phase := .opening } else w

/-- The in-flight entry of a shifted frame, with the relay time in force (R48, R54). -/
def Env.inflightOf (e : Env) : Frame → Operation × Time
  | .close n _ => (.close n, e.now + BitVec.ofNat 32 e.fix.closeTime)
  | .opn n => (.release n, e.now + BitVec.ofNat 32 e.fix.releaseTime)

/-- A mismatch in READY (R56): FAULT, an unchecked OPEN_ALL asked for, and the chain fault reported to the safety
monitor (R181). -/
def Work.chainFault (w : Work) (e : Env) : Work :=
  let w := { w with chain := { w.chain with state := .fault } }
  w.requestUnchecked.safetyAbort e .chainFault

/-- The shift-end effect of a frame (R48): it leaves the queue, the node map changes, and its operation is in
flight. The freed slot starts due processing and a pass. -/
def Work.endFrameShift (w : Work) (e : Env) (f : Frame) : Work :=
  let w := { w with chain := { w.chain with queue := w.chain.queue.filter (· != f), shift := none }
                    wake := true, freed := true }
  let w := w.frameShifted f
  let p := e.inflightOf f
  { w with chain := { w.chain with inflight := insertInflight p.1 p.2 w.chain.inflight } }

/-- FRAME_SHIFT_END (R48, R55, R56), with the 32 bits that came back on CHAIN_DI. -/
def execFrameShiftEnd (echo : BitVec 32) (s : State) : Answer :=
  onWork s fun w =>
    match w.chain.shift with
    | some ⟨.frame f, ends⟩ =>
      if reached ends s.env.now then
        let w' := w.endFrameShift s.env f
        let w' := if echo ≠ f.word ∧ w.chain.state = .ready then w'.chainFault s.env else w'
        w'.finish s.env
      else w
    | _ => w

/-- SHIFT_ABANDONED_END (R50): the chain is free, and quiet is reported if it is quiet (R51). -/
def execShiftAbandonedEnd (s : State) : Answer :=
  onWork s fun w =>
    match w.chain.shift with
    | some ⟨.abandoned, ends⟩ =>
      if reached ends s.env.now then
        ({ w with chain := { w.chain with shift := none } }).finishQuiet s.env
      else w
    | _ => w

/-! ### OPEN_ALL -/

/-- An OPEN_ALL asked for may begin its shift now: from the tick after the request, or at the end of the OPEN_ALL
that was shifting at the request, and with no other OPEN_ALL shifting (R59, R61). -/
def canBeginOpenAll (e : Env) (w : Work) : Bool :=
  match w.chain.requests with
  | r :: _ => decide (e.clock.sub = 0) && !r.fresh && !w.chain.shiftingOpenAll
  | [] => false

/-- OPEN_ALL_SHIFT_BEGIN (R59): a CLOSE or OPEN shift in progress is cut off (R50). -/
def execOpenAllShiftBegin (s : State) : Answer :=
  onWork s fun w =>
    match w.chain.requests with
    | r :: rest =>
      if canBeginOpenAll s.env w then
        { w with chain := { w.chain with shift := some ⟨.openAll r.kind, s.env.shiftEnd⟩, requests := rest } }
      else w
    | [] => w

/-- The node entry at an OPEN_ALL's shift end (R19). -/
def NodeEntry.openedAll (x : NodeEntry) : NodeEntry :=
  { x with
    phase := if x.phase = .opened then .opened else .opening
    holder := .none, target := none, due := false, waiter := none }

/-- The shift-end effect of an OPEN_ALL (R19, R59). -/
def Work.endOpenAllShift (w : Work) (e : Env) : Work :=
  let w := w.onNodes NodeEntry.openedAll
  { w with
    nodes := { w.nodes with linger := [] }
    chain :=
      { w.chain with
        queue := [], waiting := [], shift := none
        inflight := [(.openAll, e.now + BitVec.ofNat 32 e.fix.releaseTime)] }
    wake := true, freed := true }

/-- The reply that a CHAIN_RESET still waits for (R63). -/
def Work.answerReset (w : Work) (code : ReplyCode) : Work :=
  if w.port.awaiting then w.reply 0x13 code [] else w

/-- The echo of an OPEN_ALL (R55 to R57, R62, R63): on the start-up OPEN_ALL and that of CHAIN_RESET it decides
between READY and FAULT; on a checked OPEN_ALL in READY a mismatch is a chain fault; a chain fault's own is not
compared. -/
def Work.judgeOpenAll (w : Work) (e : Env) (k : OpenAllKind) (good : Bool) : Work :=
  match k with
  | .unchecked => w
  | .checked => if good = false ∧ w.chain.state = .ready then w.chainFault e else w
  | .startup | .chainReset =>
    if good then
      ({ w with chain := { w.chain with state := .ready } }).answerReset .ok
    else
      (({ w with chain := { w.chain with state := .fault } }).safetyAbort e .chainFault).answerReset .chainFault

/-- OPEN_ALL_SHIFT_END (R59), with the 32 bits that came back on CHAIN_DI. -/
def execOpenAllShiftEnd (echo : BitVec 32) (s : State) : Answer :=
  onWork s fun w =>
    match w.chain.shift with
    | some ⟨.openAll k, ends⟩ =>
      if reached ends s.env.now then
        ((w.endOpenAllShift s.env).judgeOpenAll s.env k (echo = openAllWord)).finish s.env
      else w
    | _ => w

/-! ### Completions -/

/-- The operation that completes now: the first of the in-flight list, once its time is reached (R52). -/
def completing (e : Env) (w : Work) : Option Operation :=
  match w.chain.inflight with
  | (o, t) :: _ => if reached t e.now then some o else none
  | [] => none

/-- The first in-flight entry leaves the list; a completion starts due processing and then a pass (R27, R53). -/
def Work.popInflight (w : Work) : Work :=
  { w with chain := { w.chain with inflight := w.chain.inflight.tail }, wake := true, freed := true }

/-- CLOSE_COMPLETE (R18, R53): the node goes CLOSED and counts toward the end of its lane's SWITCH (R23). -/
def execCloseComplete (s : State) : Answer :=
  onWork s fun w =>
    match completing s.env w with
    | some (.close n) =>
      let w := w.popInflight
      let x := w.node n
      let w := if x.phase = .closing then w.setNode n { x with phase := .closed } else w
      let w := match x.holder with
        | .lane a => w.checkSwitch s.env a
        | _ => w
      w.finishQuiet s.env
    | _ => w

/-- The target of a node that has just opened is queued as CLOSE (R18, R46, R53). -/
def Work.closeOntoTarget (w : Work) (n : Nat) : Work :=
  match (w.node n).target with
  | some b => w.queueTarget n b
  | none => w

/-- RELEASE_COMPLETE (R18, R53): the node goes OPEN with its bus absent, and its target CLOSE is queued. -/
def execReleaseComplete (s : State) : Answer :=
  onWork s fun w =>
    match completing s.env w with
    | some (.release n) =>
      let w := w.popInflight
      let x := w.node n
      let w :=
        if x.phase = .opening then (w.setNode n { x with phase := .opened, bus := none }).closeOntoTarget n else w
      w.finishQuiet s.env
    | _ => w

/-- The node entry at an OPEN_ALL's completion (R19, R60). -/
def NodeEntry.released (x : NodeEntry) : NodeEntry :=
  if x.phase = .opening then { x with phase := .opened, bus := none } else x

/-- OPEN_ALL_COMPLETE (R19, R60): every OPENING node goes OPEN, and targets set since the shift end are queued in
ascending node number. -/
def execOpenAllComplete (s : State) : Answer :=
  onWork s fun w =>
    match completing s.env w with
    | some .openAll =>
      let opened := (w.nodes.entries.filter fun p => decide (p.2.phase = .opening)).map (·.1)
      let w := w.popInflight.onNodes NodeEntry.released
      (opened.foldl Work.closeOntoTarget w).finishQuiet s.env
    | _ => w

/-! ### The linger list -/

/-- The first linger entry has reached its expiry (R31). -/
def lingerExpired (e : Env) (w : Work) : Option Nat :=
  match w.nodes.linger with
  | (n, t) :: _ => if reached t e.now then some n else none
  | [] => none

/-- LINGER_EXPIRY (R31): the first entry leaves the list and its node becomes due; due processing runs, and no
pass of the claim arbiter. That entries which expire at the same time are each an event of their own, with due
processing after each, is the model's choice (R32; log entry 24). -/
def execLingerExpiry (s : State) : Answer :=
  onWork s fun w =>
    match lingerExpired s.env w with
    | some n =>
      (({ w with nodes := { w.nodes with linger := w.nodes.linger.tail } }).setDue n).serveSlots
    | none => w

end Sys2Proof.Machine
end

