-- ==== Sys2Proof/Machine/HostControl.lean ====
section
/-! DEFINITION. The requests on the whole part and the host port's own events: HARD_RESET, ABORT_ALL, CHAIN_RESET,
CLEAR, UNKNOWN_REQUEST_TYPE, HOST_REQUEST_ABANDONED. -/

namespace Sys2Proof.Machine

/-- HARD_RESET (R17, and the reset columns of every chapter): everything takes its value after hard reset; the
levels at the pins, the bytes on the lines, the command queue and the race key belong to the outside and stay. -/
def execHardReset (s : State) : Answer :=
  .next
    { fix := Fixed.reset, clock := ⟨0, 0⟩
      inputs := Inputs.reset s.inputs.seatedPin s.inputs.abortNPin s.inputs.stablePins
        s.inputs.lines s.inputs.loop
      work := Work.reset, pending := s.pending, race := s.race }

/-- ABORT_ALL (R180). -/
def execAbortAll (s : State) : Answer :=
  onWork s fun w => ((w.safetyAbort s.env .abort).finish s.env).reply 0x12 .ok []

/-- CHAIN_RESET (R63): in READY OK at once; in STARTING and FAULT the reply waits for an OPEN_ALL's shift end, in
FAULT for that of a checked OPEN_ALL of its own. -/
def execChainReset (s : State) : Answer :=
  onWork s fun w =>
    match w.chain.state with
    | .ready => w.reply 0x13 .ok []
    | .starting => { w with port := ⟨none, true⟩ }
    | .fault => { w.requestReset with port := ⟨none, true⟩ }

/-- CLEAR at one lane (R202): CANCEL for a step from SWITCH to RESULT_WAIT, then the lane at its starting
condition with its link kept. -/
def Work.clearLane (w : Work) (n : LaneId) : Work :=
  let w :=
    match (w.lane n).cur with
    | some c =>
      if c.phase.pastClaim then w.sendAll (stepLanes n c.step) (.cancel c.step.tag c.attempt) else w
    | none => w
  w.onLane n fun l => { Lane.reset with rx := l.rx, arrived := l.arrived, tx := l.tx, sending := l.sending }

/-- CLEAR at the node map and the relay chain engine (R41, R43, R203). In every chain state the marks, the claim
order list, the waiting target list and the quiet holds are emptied, the release of a hold counting as in R51, and the
last winner is lane 3. In READY an OPEN_ALL is asked for, whose shift end clears the rest; otherwise holders and
targets are cleared and the CLOSE frames withdrawn here. That OPEN frames stay in the queue in FAULT until the chain
fault's OPEN_ALL empties it is the model's choice between R41 and R43 (log entry 25). -/
def Work.clearFixture (w : Work) : Work :=
  let w := w.onNodes fun x => { x with waiter := none }
  let w :=
    { w with
      nodes := { w.nodes with order := [], lastWinner := 3 }
      chain :=
        { w.chain with waiting := [], holds := [], holdOff := w.chain.holdOff || !w.chain.holds.isEmpty } }
  match w.chain.state with
  | .ready => w.requestOpenAll
  | _ =>
    let w := w.onNodes fun x => { x with holder := .none, target := none }
    { w with
      chain :=
        { w.chain with
          queue := w.chain.queue.filter fun f => match f with
            | .close _ _ => false
            | .opn _ => true
          shift := w.chain.shift.map fun x => match x.kind with
            | .frame (.close _ _) => { x with kind := .abandoned }
            | _ => x } }

/-- CLEAR (R201 to R203): lanes, node map and chain, tokens, results, and last the notice table. -/
def execClear (s : State) : Answer :=
  onWork s fun w =>
    let w := allLanes.foldl Work.clearLane w
    let w := w.clearFixture
    ({ w with
        tokens := Vector.replicate 32 none, results := [], lastDelivering := 3
        notices := Vector.replicate 6 0, wake := false, freed := false }).reply 0x14 .ok []

/-- UNKNOWN_REQUEST_TYPE (R191): FORMAT with type echo FFh, or the type itself for a listed type that the port
refuses for its length (log entry 7); no block sees the request. -/
def execUnknownRequestType (type : Byte) (_body : List Byte) (s : State) : Answer :=
  onWork s fun w => w.reply (if requestListed type then type else 0xFF) .format []

/-- HOST_REQUEST_ABANDONED (R190): the received bytes are discarded and nothing changes. -/
def execHostRequestAbandoned (_received : List Byte) (s : State) : Answer := .next s

end Sys2Proof.Machine
end

