-- ==== Sys2Proof/Machine/Operands.lean ====
section
/-! DEFINITION. The operand forms of requests and messages: lane, region and token numbers, lane masks and the
coded fields of CONFIG_LANE, each none where the owning block refuses it with FORMAT (R205). -/

namespace Sys2Proof.Machine

/-- A lane number byte; above 3 is refused (R68, R80, R84, R131). -/
def laneOf (b : Byte) : Option LaneId := if h : b.toNat < 4 then some ⟨b.toNat, h⟩ else none

/-- A region number byte; above 7 is refused (R4, R8). -/
def regionOf (b : Byte) : Option (Fin 8) := if h : b.toNat < 8 then some ⟨b.toNat, h⟩ else none

/-- A token number byte; above 31 is refused (R149, R150). -/
def tokenOf (b : Byte) : Option (Fin 32) := if h : b.toNat < 32 then some ⟨b.toNat, h⟩ else none

/-- A bus byte; above 19 is refused (R37). -/
def busOfByte (b : Byte) : Option (Fin 20) := if h : b.toNat < 20 then some ⟨b.toNat, h⟩ else none

/-- A lane mask; one that names no lane or has a bit above lane 3 is refused (R86, R88). -/
def maskOf (b : Byte) : Option (List LaneId) :=
  if b.toNat = 0 ∨ 16 ≤ b.toNat then none else some (allLanes.filter fun n => b.getLsbD n.val)

/-- The low three bits of a 16-bit value discarded (R4). -/
def roundDown (v : BitVec 16) : Nat := v.toNat - v.toNat % 8

/-- The enabled code: 0 no, 1 yes (section 11.6). -/
def enabledOf (b : Byte) : Option Bool :=
  match b.toNat with
  | 0 => some false
  | 1 => some true
  | _ => none

/-- The fail action code: 0 CONTINUE, 1 HALT. -/
def failActionOf (b : Byte) : Option FailAction :=
  match b.toNat with
  | 0 => some .continue'
  | 1 => some .halt
  | _ => none

/-- The timeout action code: 0 SUBSTITUTE, 1 HALT. -/
def timeoutActionOf (b : Byte) : Option TimeoutAction :=
  match b.toNat with
  | 0 => some .substitute
  | 1 => some .halt
  | _ => none

/-- The line mode code: 0 AUTO, 1 MANUAL. -/
def lineModeOf (b : Byte) : Option LineMode :=
  match b.toNat with
  | 0 => some .auto
  | 1 => some .manual
  | _ => none

/-- The eight fields of CONFIG_LANE, with the checks of R84 on them. -/
def configOf (en fa ta : Byte) (gain : BitVec 16) (offset : BitVec 24) (linger : BitVec 16) (low mode : Byte) :
    Option LaneConfig :=
  match enabledOf en, failActionOf fa, timeoutActionOf ta, lineModeOf mode with
  | some enabled, some failAction, some timeoutAction, some lineMode =>
    if 63 < low.toNat ∨ offset.toInt = Config.noReading then none
    else some
      { enabled, failAction, timeoutAction, lineMode, gain := gain.toNat, offset := offset.toInt
        linger := linger.toNat, lowWater := low.toNat }
  | _, _, _, _ => none

/-- The reading flag code: 0 OK, 1 OVERRANGE, 2 FAULT; none other names a reading (R156). -/
def readingFlagOf (b : Byte) : Option ReadingFlag :=
  match b.toNat with
  | 0 => some .ok
  | 1 => some .overrange
  | 2 => some .fault
  | _ => none

end Sys2Proof.Machine
end

