-- ==== Sys2Proof/Machine/HostData.lean ====
section
/-! DEFINITION. The host requests on results, notices and tokens: TAKE_RESULTS, ACK_NOTICE, SET_MASK and the three
operations of TOKEN. -/

namespace Sys2Proof.Machine

/-- The freed slots are handed to the waiting lanes in rotating order after the last delivering lane (R172). -/
def Work.handOut (w : Work) (e : Env) : Work :=
  (lanesAfter w.lastDelivering).foldl (fun w n => w.offer e n) w

/-- TAKE_RESULTS (R174): the oldest records leave and are returned with the length left, then the freed slots are
handed out. -/
def execTakeResults (count : Byte) (s : State) : Answer :=
  onWork s fun w =>
    if 16 < count.toNat then w.reply 0x0D .format []
    else
      let taken := w.results.take count.toNat
      let left := w.results.drop count.toNat
      let body := [byte taken.length, byte left.length] ++ taken.flatMap ResultRecord.bytes
      let w := { w with results := left }
      let w := if taken.isEmpty then w else w.handOut s.env
      (w.finish s.env).reply 0x0D .ok body

/-- A set of sources as a byte, bit n for source n. -/
def sourceByte (v : BitVec 6) : Byte := v.setWidth 8

/-- ACK_NOTICE (R198): the first unmasked source with pending causes is returned and emptied; NONE with the set of
pending sources when there is none. -/
def execAckNotice (s : State) : Answer :=
  onWork s fun w =>
    match pickSource s.fix w with
    | some k =>
      let causes := w.notices[k.val]
      let w := { w with notices := w.notices.set k.val 0 }
      w.reply 0x0E .ok [byte k.val, causes.setWidth 8, sourceByte w.pendingSources]
    | none => w.reply 0x0E .none [sourceByte w.pendingSources]

/-- SET_MASK (R199). -/
def execSetMask (masks : Byte) (s : State) : Answer :=
  if 64 ≤ masks.toNat then onWork s fun w => w.reply 0x0F .format []
  else
    .next
      { s with
        fix := { s.fix with masks := masks.setWidth 6 }
        work := s.work.reply 0x0F .ok [sourceByte s.work.pendingSources] }

/-- TOKEN, operation post (R147, R150). R150 gives the set of waiting lanes to a read alone; that the byte of section 11.6
carries it in this reply too, those lanes that wait after the post, is the model's choice (DESIGN CHOICE, log entry 32). -/
def execTokenPost (token code : Byte) (s : State) : Answer :=
  onWork s fun w =>
    match tokenOf token with
    | none => w.reply 0x10 .format []
    | some k =>
      match w.tokens[k.val] with
      | some p => w.reply 0x10 .overposted (tokenReadout (some p) (w.waitingLanes k))
      | none =>
        let w := (w.postToken k (.host, code)).finish s.env
        w.reply 0x10 .ok (tokenReadout w.tokens[k.val] (w.waitingLanes k))

/-- TOKEN, operation clear (R150): the fields as they stood go into the reply. That the byte of section 11.6 for the
waiting lanes carries them here too, R150 giving the set to a read alone, is the model's choice (DESIGN CHOICE, log
entry 32). -/
def execTokenClear (token _code : Byte) (s : State) : Answer :=
  onWork s fun w =>
    match tokenOf token with
    | none => w.reply 0x10 .format []
    | some k =>
      ({ w with tokens := w.tokens.set k.val none }).reply 0x10 .ok
        (tokenReadout w.tokens[k.val] (w.waitingLanes k))

/-- TOKEN, operation read (R150). -/
def execTokenRead (token _code : Byte) (s : State) : Answer :=
  onWork s fun w =>
    match tokenOf token with
    | none => w.reply 0x10 .format []
    | some k => w.reply 0x10 .ok (tokenReadout w.tokens[k.val] (w.waitingLanes k))

end Sys2Proof.Machine
end

