-- ==== Sys2Proof/Machine/HostFixture.lean ====
section
/-! DEFINITION. The host requests that act on the region table, the fixture configuration and single nodes:
LOAD_REGION, READ_REGION, FIXTURE_CONFIG, SET_NODE, FREE_NODE, READ_NODE. -/

namespace Sys2Proof.Machine

/-- The record a LOAD_REGION leaves, from its rounded values, or the refusal REGION_RANGE (R4, R5, R6). -/
def loadedRegion (start size offset : Nat) : Option Region :=
  if size = 0 then some .invalid
  else if 4096 < size ∨ 65536 < start + size ∨ 4088 < offset then none
  else some ⟨true, start, size, offset⟩

/-- LOAD_REGION (R4). -/
def execLoadRegion (region : Byte) (start size offset : BitVec 16) (s : State) : Answer :=
  match regionOf region with
  | none => onWork s fun w => w.reply 0x07 .format []
  | some k =>
    match loadedRegion (roundDown start) (roundDown size) (roundDown offset) with
    | some r =>
      .next { s with fix := { s.fix with regions := s.fix.regions.set k.val r }, work := s.work.reply 0x07 .ok [] }
    | none => onWork s fun w => w.reply 0x07 .regionRange []

/-- READ_REGION (R8). -/
def execReadRegion (region : Byte) (s : State) : Answer :=
  onWork s fun w =>
    match regionOf region with
    | some k => w.reply 0x08 .ok (regionReadout s.fix.regions[k.val])
    | none => w.reply 0x08 .format []

/-- Every lane is STOPPED with no step in progress and every node entry is OPEN with holder none (R40). -/
def Work.isIdle (w : Work) : Bool :=
  (allLanes.all fun n => decide ((w.lane n).run = .stopped ∧ (w.lane n).cur = none)) &&
    w.nodes.entries.all fun p => decide (p.2.phase = .opened ∧ p.2.holder = .none)

/-- The values of FIXTURE_CONFIG lie in their ranges (R40). -/
def fixtureValuesOk (count close release : Nat) : Bool :=
  decide (count % 64 = 0 ∧ 64 ≤ count ∧ count ≤ 4096 ∧ 1 ≤ close ∧ close ≤ 1023 ∧ 1 ≤ release ∧ release ≤ 1023)

/-- FIXTURE_CONFIG (R40): the three values take effect together. -/
def execFixtureConfig (nodeCount closeTime releaseTime : BitVec 16) (s : State) : Answer :=
  if fixtureValuesOk nodeCount.toNat closeTime.toNat releaseTime.toNat = false then
    onWork s fun w => w.reply 0x09 .format []
  else if s.work.isIdle = false then onWork s fun w => w.reply 0x09 .laneActive []
  else
    .next
      { s with
        fix :=
          { s.fix with
            nodeCount := nodeCount.toNat, closeTime := closeTime.toNat, releaseTime := releaseTime.toNat }
        work := s.work.reply 0x09 .ok [] }

/-- A manual hold of a node on a bus (R37): the refusal, or the work after the claim. A hold that already stands
on the bus, as bus or target, changes nothing. -/
def Work.holdNode (w : Work) (n : Nat) (b : Fin 20) : Work × ReplyCode :=
  let x := w.node n
  let onBus := decide (x.bus = some b ∨ x.target = some b)
  match x.holder, x.waiter with
  | .lane _, _ => (w, .busy)
  | _, some _ => (w, .busy)
  | .manual, none => (w, if onBus then .ok else .busy)
  | .none, none =>
    if (w.claimRow n b).needsFrame = true ∧ w.chain.freeSlots = 0 then (w, .busy)
    else (w.takeNode .manual n b, .ok)

/-- SET_NODE (R37): FORMAT, UNSEATED and BUSY in that order, then the claim with holder MANUAL. -/
def execSetNode (node : BitVec 16) (bus : Byte) (s : State) : Answer :=
  onWork s fun w =>
    match busOfByte bus with
    | none => w.reply 0x0A .format []
    | some b =>
      if s.fix.nodeCount ≤ node.toNat then w.reply 0x0A .format []
      else if s.env.isSeated = false then w.reply 0x0A .unseated []
      else
        let p := w.holdNode node.toNat b
        (p.1.finish s.env).reply 0x0A p.2 []

/-- FREE_NODE (R38): a MANUAL hold is released, a closed node becoming due; the pass finds it due, and due processing
comes after the pass. -/
def execFreeNode (node : BitVec 16) (s : State) : Answer :=
  onWork s fun w =>
    if Config.nodes ≤ node.toNat then w.reply 0x0B .format []
    else
      match (w.node node.toNat).holder with
      | .lane _ => w.reply 0x0B .busy []
      | .none => w.reply 0x0B .ok []
      | .manual => ((w.releaseNode node.toNat none).finish s.env).reply 0x0B .ok []

/-- READ_NODE (R39). -/
def execReadNode (node : BitVec 16) (s : State) : Answer :=
  onWork s fun w =>
    if Config.nodes ≤ node.toNat then w.reply 0x0C .format []
    else w.reply 0x0C .ok (nodeReadout w s.clock.time node)

end Sys2Proof.Machine
end

