-- ==== Sys2Proof/Machine/Admission.lean ====
section
/-! DEFINITION. Admission: the checks of R74 in order, translation through the region table (chapter 1), and
the ADMISSION event. -/

namespace Sys2Proof.Machine

/-- The region's window holds the logical node (R2). -/
def Region.holds (r : Region) (l : Nat) : Bool := r.valid && r.start ≤ l && l < r.start + r.size

/-- Translation of one logical node: the first valid record whose window holds it, then the fixture node count
(R9 to R12). -/
def translate (fix : Fixed) (l : Nat) : Except AdmissionError Nat :=
  match fix.regions.toList.find? (·.holds l) with
  | none => .error .unmapped
  | some r =>
    let p := r.offset + (l - r.start)
    if fix.nodeCount ≤ p then .error .nodeRange else .ok p

/-- Translation of a step's connections in list order, up to the first that fails (R9, R11). -/
def translateAll (fix : Fixed) : List Connection → Except AdmissionError (List Nat)
  | [] => .ok []
  | k :: ks =>
    match translate fix k.logical with
    | .error err => .error err
    | .ok p =>
      match translateAll fix ks with
      | .error err => .error err
      | .ok ps => .ok (p :: ps)

/-- The connection counts on the leader side: every one does on a step without FUSED (R65, R76). -/
def onLeaderSide (step : StepRecord) (k : Connection) : Bool :=
  !step.flags.fused || decide (k.side = .leader)

/-- The FUSE check passes (R75). -/
def fuseOk (fix : Fixed) (n : LaneId) (step : StepRecord) : Bool :=
  !step.flags.fused || (decide (n = 0 ∨ n = 2) && (fix.lanes[(followerOf n).val]).enabled)

/-- The ROLES check passes (R76). -/
def rolesOk (step : StepRecord) : Bool :=
  let leader := (step.connections.filter (onLeaderSide step)).map (·.role)
  let follower := (step.connections.filter fun k => !onLeaderSide step k).map (·.role)
  decide (leader.count .hi = 1 ∧ leader.count .lo = 1 ∧ leader.count .sh ≤ 1 ∧ leader.count .sl = leader.count .sh)
    && (!step.flags.fused ||
      decide (follower ≠ [] ∧ follower.count .hi ≤ 1 ∧ follower.count .lo ≤ 1 ∧ follower.count .sh ≤ 1
        ∧ follower.count .sl ≤ 1))

/-- A pair of limits is in order: not both present with low above high (R77). -/
def limitPairOk (low high : Option Int) : Bool :=
  match low, high with
  | some l, some h => decide (l ≤ h)
  | _, _ => true

/-- The LIMITS check passes (R77). -/
def limitsOk (step : StepRecord) : Bool :=
  limitPairOk step.low step.high && (!step.flags.fused || limitPairOk step.followerLow step.followerHigh)

/-- The bus a connection requires: on the follower's buses for a follower-side connection of a FUSED step (R20). -/
def requiredBus (n : LaneId) (step : StepRecord) (k : Connection) : Fin 20 :=
  busOf (if onLeaderSide step k then n else followerOf n) k.role

/-- The admission checks in their order (R74): the physical node and bus of each connection, or the error code of
the first check that fails. -/
def admissionCheck (fix : Fixed) (n : LaneId) (step : StepRecord) :
    Except AdmissionError (List (Nat × Fin 20)) :=
  if fuseOk fix n step = false then .error .fuse
  else if rolesOk step = false then .error .roles
  else if limitsOk step = false then .error .limits
  else
    match translateAll fix step.connections with
    | .error err => .error err
    | .ok ps =>
      if ps.Nodup then .ok (ps.zip (step.connections.map (requiredBus n step))) else .error .duplicate

/-- The current step that a record becomes at its admission (R92). -/
def CurStep.admitted (step : StepRecord) (nodes : List (Nat × Fin 20)) : CurStep :=
  { step, phase := .admission, resume := none, nodes, attempt := 0, settle := settleOf step.settle 0
    leader := .start, follower := .start, token := none, attemptsUsed := 0, captured := none
    capped := false, saturated := false, overpost := false, record := none }

/-- An admitted step enters FUSE_WAIT when FUSED, and otherwise its token wait or CLAIM (R78, R93). -/
def Work.startStep (w : Work) (e : Env) (n : LaneId) (c : CurStep) : Work :=
  if c.step.flags.fused then w.enterFuseWait e n c else w.enterWaits e n c

/-- The admission of a lane's head record (R74, R78, R79). -/
def Work.admitHead (w : Work) (e : Env) (n : LaneId) : Work :=
  match (w.lane n).queue with
  | [] => w
  | step :: rest =>
    let w := w.onLane n fun l => { l with queue := rest }
    match admissionCheck e.fix n step with
    | .ok nodes => w.startStep e n (CurStep.admitted step nodes)
    | .error err => w.enterDeliver e n (CurStep.admitted step []) (rejectedRecord n step err)

end Sys2Proof.Machine
end

