-- ==== Sys2Proof/Machine/HostLanes.lean ====
section
/-! DEFINITION. The host requests that act on lanes, and the shared lane operations behind them and the unit
messages: POST_STEP, CANCEL_LANE, GO, PAUSE, CONFIG_LANE, READ_LANE, LINE_WRITE. -/

namespace Sys2Proof.Machine

/-! ### Shared lane operations -/

/-- A record joins the tail of a lane queue (R68, R69). -/
def Work.append (w : Work) (n : LaneId) (r : StepRecord) : Work :=
  w.onLane n fun l => { l with queue := l.queue ++ [r] }

/-- A kept step resumes at its resume point when its lane becomes RUNNING (R87). -/
def Work.resumeStep (w : Work) (e : Env) (n : LaneId) (c : CurStep) : Work :=
  match c.resume with
  | some .fuseWait => w.enterFuseWait e n c
  | some .tokenWait => w.enterWaits e n c
  | some .claim => w.enterClaim n c
  | none => w

/-- GO at one lane (R86, R91, R134). -/
def Work.goLane (w : Work) (e : Env) (n : LaneId) : Work :=
  let l := w.lane n
  match l.run with
  | .stopped | .paused | .halted | .held =>
    let w := w.setLane n { l with run := .running }
    match l.cur with
    | some c => w.resumeStep e n c
    | none => w.tryFollow e n
  | .running | .pausing => w
  | .following =>
    if l.remembered = some .paused ∨ l.remembered = some .stopped then
      w.setLane n { l with remembered := some .running }
    else w

/-- The checks of GO on the named lanes, in their order (R86). -/
def goRefusal (e : Env) (w : Work) (ns : List LaneId) : Option ReplyCode :=
  if e.isSeated = false then some .unseated
  else if w.chain.state ≠ .ready then some .chainFault
  else if ns.any fun n => decide ((e.cfg n).lineMode = .manual) then some .lineManual
  else if ns.any fun n => !(e.cfg n).enabled then some .disabled
  else none

/-- PAUSE at one lane (R88, R91, R136). -/
def Work.pauseLane (w : Work) (n : LaneId) : Work :=
  let l := w.lane n
  let paused (w : Work) : Work := w.onLane n fun l => { l with run := .paused }
  match l.run with
  | .running =>
    match l.cur with
    | none => paused w
    | some c =>
      match c.phase with
      | .fuseWait => paused ((w.keepStep n c .fuseWait).unfreeze n c.step)
      | .tokenWait => paused (w.keepStep n c .tokenWait)
      | .claim => paused (w.keepStep n c .claim)
      | .none | .admission => paused w
      | _ => w.setLane n { l with run := .pausing }
  | .following =>
    if l.remembered = some .running then w.setLane n { l with remembered := some .paused } else w
  | _ => w

/-- CANCEL_LANE at a lane (R80, R81, R144): the records behind the current step go, and the step by its phase.
The second part is the number of records removed without a result record. A step in CLAIM, or one kept in CLAIM,
starts a pass as it goes. -/
def Work.cancelLane (w : Work) (e : Env) (n : LaneId) : Work × Nat :=
  let l := w.lane n
  let w := w.onLane n fun l => { l with queue := [] }
  match l.cur with
  | none => (w.noteRemoval e n l.length 0, l.length)
  | some c =>
    if c.phase = .deliver then (w.noteRemoval e n l.length 1, l.queue.length)
    else if c.phase.pastClaim then
      (((w.noteRemoval e n l.length 1).abortStep e n c).offer e n, l.queue.length)
    else
      let w := (w.stopAll n).leaveClaim n
      let w := if c.phase = .claim ∨ c.resume = some .claim then { w with wake := true } else w
      let w := (w.setCur n none).noteRemoval e n l.length 0
      ((w.endPair n c.step).tryFollow e n, l.length)

/-! ### The requests -/

/-- POST_STEP (R68): FORMAT, then QUEUE_FULL, then the record at the tail with origin HOST. -/
def execPostStep (lane : Byte) (record : List Byte) (s : State) : Answer :=
  onWork s fun w =>
    match laneOf lane, parseRecord .host record with
    | some n, some r =>
      if (w.lane n).length < Config.laneQueueCap then (w.append n r).reply 0x01 .ok []
      else w.reply 0x01 .queueFull []
    | _, _ => w.reply 0x01 .format []

/-- CANCEL_LANE from the host (R80). -/
def execCancelLane (lane : Byte) (s : State) : Answer :=
  onWork s fun w =>
    match laneOf lane with
    | some n =>
      let p := w.cancelLane s.env n
      (p.1.finish s.env).reply 0x02 .ok [byte p.2]
    | none => w.reply 0x02 .format []

/-- GO from the host (R86): the whole request is checked, then each named lane changes at the one event. -/
def execGo (mask : Byte) (s : State) : Answer :=
  onWork s fun w =>
    match maskOf mask with
    | none => w.reply 0x03 .format []
    | some ns =>
      match goRefusal s.env w ns with
      | some code => w.reply 0x03 code []
      | none => ((ns.foldl (fun w n => w.goLane s.env n) w).finish s.env).reply 0x03 .ok []

/-- PAUSE from the host (R88). -/
def execPause (mask : Byte) (s : State) : Answer :=
  onWork s fun w =>
    match maskOf mask with
    | none => w.reply 0x04 .format []
    | some ns => ((ns.foldl (fun w n => w.pauseLane n) w).finish s.env).reply 0x04 .ok []

/-- CONFIG_LANE (R84), with the lines of a change of line mode (R110): MANUAL to AUTO drives both low. -/
def execConfigLane (lane en fa ta : Byte) (gain : BitVec 16) (offset : BitVec 24) (linger : BitVec 16)
    (low mode : Byte) (s : State) : Answer :=
  match laneOf lane, configOf en fa ta gain offset linger low mode with
  | some n, some cfg =>
    let l := s.work.lane n
    if (l.run = .stopped ∨ l.run = .paused ∨ l.run = .halted) ∧ l.cur = none then
      let w :=
        if (s.fix.lanes[n.val]).lineMode = .manual ∧ cfg.lineMode = .auto then
          s.work.setLane n { l with src := false, gate := false }
        else s.work
      .next
        { s with fix := { s.fix with lanes := s.fix.lanes.set n.val cfg }, work := w.reply 0x05 .ok [] }
    else onWork s fun w => w.reply 0x05 .laneActive []
  | _, _ => onWork s fun w => w.reply 0x05 .format []

/-- READ_LANE (R131). -/
def execReadLane (lane : Byte) (s : State) : Answer :=
  onWork s fun w =>
    match laneOf lane with
    | some n => w.reply 0x06 .ok (laneReadout (w.lane n) n (s.inputs.stable[n.val]).level)
    | none => w.reply 0x06 .format []

/-- LINE_WRITE (R109): the lanes in MANUAL line mode take the levels. -/
def execLineWrite (levels : Byte) (s : State) : Answer :=
  onWork s fun w =>
    (allLanes.foldl
      (fun w n =>
        if (s.env.cfg n).lineMode = .manual then
          w.onLane n fun l => { l with src := levels.getLsbD n.val, gate := levels.getLsbD (n.val + 4) }
        else w) w).reply 0x11 .ok []

end Sys2Proof.Machine
end

