-- ==== Sys2Proof/Machine/LaneEvents.lean ====
section
/-! DEFINITION. The lane sequencers' own events: ADMISSION and the ends of the timing channels. An event takes
place only where its condition holds (log entry 3). -/

namespace Sys2Proof.Machine

/-- ADMISSION (R74): the head record of a lane in ADMIT. -/
def execAdmission (lane : LaneId) (s : State) : Answer :=
  onWork s fun w => if (w.lane lane).inAdmit then (w.admitHead s.env lane).finish s.env else w

/-- FIXED_SETTLE_EXPIRY (R121): C0 expires and settle ends with the attempt's settle value captured. -/
def execFixedSettleExpiry (lane : LaneId) (s : State) : Answer :=
  onWork s fun w =>
    match (w.lane lane).cur with
    | some c =>
      if c.phase = .settle ∧ (w.lane lane).c0.expiring = true then
        ((w.onLane lane fun l => { l with c0 := l.c0.expire }).endSettle s.env lane c c.settle false).finish s.env
      else w
    | none => w

/-- ADAPTIVE_SETTLE_END (R122): the settle test at a count tick; settle ends, or C0 counts on. -/
def execAdaptiveSettleEnd (lane : LaneId) (s : State) : Answer :=
  onWork s fun w =>
    match (w.lane lane).cur with
    | some c =>
      let ch := (w.lane lane).c0
      if c.phase = .settle ∧ ch.counting = true ∧ ch.due = true ∧ ch.adaptive = true then
        match ch.settleTest (s.inputs.stable[lane.val]).level with
        | some capped =>
          ((w.onLane lane fun l => { l with c0 := ch.stop }).endSettle s.env lane c ch.count capped).finish s.env
        | none => w.onLane lane fun l => { l with c0 := { ch with due := false } }
      else w
    | none => w

/-- SOURCE_DELAY_EXPIRY (R98, R117): C1 expires, with the follower's on a FUSED step (R130). -/
def execSourceDelayExpiry (lane : LaneId) (s : State) : Answer :=
  onWork s fun w =>
    match (w.lane lane).cur with
    | some c =>
      if c.phase = .source ∧ (w.lane lane).c1.expiring = true then
        let w := w.startEach (stepLanes lane c.step) fun l => { l with c1 := l.c1.expire }
        (w.endSourceDelay s.env lane c).finish s.env
      else w
    | none => w

/-- GATE_EXPIRY (R99, R118): C2 expires, with the follower's on a FUSED step (R130). -/
def execGateExpiry (lane : LaneId) (s : State) : Answer :=
  onWork s fun w =>
    match (w.lane lane).cur with
    | some c =>
      if c.phase = .gate ∧ (w.lane lane).c2.expiring = true then
        let w := w.startEach (stepLanes lane c.step) fun l => { l with c2 := l.c2.expire }
        (w.endGate s.env lane c).finish s.env
      else w
    | none => w

/-- TOKEN_TIMEOUT (R93, R153): C3 expires in TOKEN_WAIT and the step ends with nothing claimed. -/
def execTokenTimeout (lane : LaneId) (s : State) : Answer :=
  onWork s fun w =>
    match (w.lane lane).cur with
    | some c =>
      if c.phase = .tokenWait ∧ (w.lane lane).c3.expiring = true then
        let w := w.onLane lane fun l => { l with c3 := l.c3.expire }
        (w.enterDeliver s.env lane c (c.toRecord lane .tokenTimeout)).finish s.env
      else w
    | none => w

/-- The step as a TIMEOUT ends it (R102, R142): the timed-out attempt counts, and the timeout action sets the
values. -/
def CurStep.timedOut (c : CurStep) (a : TimeoutAction) : CurStep :=
  let v := match a with
    | .substitute => Config.maxValue
    | .halt => Config.noReading
  { c with
    attemptsUsed := c.attemptsUsed + 1, saturated := decide (a = .substitute)
    leader := { c.leader.next with value := v }, follower := { c.follower.next with value := v } }

/-- TIMEOUT (R97, R101, R102, R142): C3 expires in READY_WAIT or RESULT_WAIT. CANCEL goes to the units, every
channel of the step stops, SRC falls, and the step completes with verdict TIMEOUT. -/
def execTimeout (lane : LaneId) (s : State) : Answer :=
  onWork s fun w =>
    match (w.lane lane).cur with
    | some c =>
      if (c.phase = .readyWait ∨ c.phase = .resultWait) ∧ (w.lane lane).c3.expiring = true then
        let w := w.onLane lane fun l => { l with c3 := l.c3.expire }
        let w := w.sendAll (stepLanes lane c.step) (.cancel c.step.tag c.attempt)
        let w := w.stopStep lane c.step
        (w.complete s.env lane (c.timedOut (s.env.cfg lane).timeoutAction) .timeout).finish s.env
      else w
    | none => w

end Sys2Proof.Machine
end

