-- ==== Sys2Proof/Machine/Pins.lean ====
section
/-! DEFINITION. The events of the filtered inputs: SEATED (R177), ABORT_N (R179) and STABLE (R126). A change of a
filtered level means that the input has stood at the new level for two samples, so the pin and the last sample
stand there too (log entry 4). -/

namespace Sys2Proof.Machine

/-- A filter whose level has just changed. -/
def Filter.settledAt (level : Bool) : Filter := ⟨level, level, false⟩

/-- A CLOSE shift in progress is abandoned; its frame stays at the head (R50). -/
def Work.abandonClose (w : Work) : Work :=
  { w with
    chain :=
      { w.chain with
        shift := w.chain.shift.map fun x => match x.kind with
          | .frame (.close _ _) => { x with kind := .abandoned }
          | _ => x } }

/-- SEATING_CHANGE_UNSEATED (R177): UNSEAT is raised and the safety abort runs. -/
def execSeatingChangeUnseated (s : State) : Answer :=
  if s.inputs.seated.level then
    let s := { s with inputs := { s.inputs with seatedPin := false, seated := .settledAt false } }
    onWork s fun w => (w.abandonClose.safetyAbort s.env .unseat).finish s.env
  else .next s

/-- SEATING_CHANGE_SEATED (R177): SEATED is raised; a waiting CLOSE may shift from the next tick (R49). -/
def execSeatingChangeSeated (s : State) : Answer :=
  if s.inputs.seated.level then .next s
  else
    let s := { s with inputs := { s.inputs with seatedPin := true, seated := .settledAt true } }
    onWork s fun w => ({ w with chain := { w.chain with closeHoldOff := true } }).raise .seated

/-- ABORT_N_EDGE (R179): the filtered level falls; ABORT is raised and the safety abort runs. -/
def execAbortNEdge (s : State) : Answer :=
  if s.inputs.abortN.level then
    let s := { s with inputs := { s.inputs with abortNPin := false, abortN := .settledAt false } }
    onWork s fun w => (w.safetyAbort s.env .abort).finish s.env
  else .next s

/-- ABORT_N_RISE (R179): the filtered level rises; no cause, and nothing starts. -/
def execAbortNRise (s : State) : Answer :=
  .next { s with inputs := { s.inputs with abortNPin := true, abortN := .settledAt true } }

/-- STABLE_CHANGE (R126): a lane's filtered STABLE level takes the level. -/
def execStableChange (lane : LaneId) (level : Bool) (s : State) : Answer :=
  .next
    { s with
      inputs :=
        { s.inputs with
          stablePins := s.inputs.stablePins.set lane.val level
          stable := s.inputs.stable.set lane.val (.settledAt level) } }

end Sys2Proof.Machine
end

