-- ==== Sys2Proof/Machine/UnitMessages.lean ====
section
/-! DEFINITION. The messages of the unit controllers and the events of the unit links: POST, UNIT_CANCEL_LANE,
UNIT_PAUSE, UNIT_GO, READY, RESULT, UNIT_TOKEN, the link faults, LINK_START_BYTE, TRANSMIT_MESSAGE and
TRANSMIT_END. A message is taken at the arrival of its last byte, which returns the receiver to HUNTING (R194). -/

namespace Sys2Proof.Machine

/-- A frame is complete or discarded: the receiver returns to HUNTING (R194). -/
def Work.hunt (w : Work) (n : LaneId) : Work := w.onLane n fun l => { l with rx := .hunting }

/-- A frame is discarded with LINK_ERROR on the lane's source (R194, R195). -/
def Work.discardFrame (w : Work) (n : LaneId) : Work := (w.hunt n).raise (.linkError n)

/-- POST (R69): ACCEPT or REFUSE with the record's tag. A length that disagrees with the connection count is a bad
frame (R195). -/
def execPost (lane : LaneId) (record : List Byte) (s : State) : Answer :=
  onWork s fun w =>
    if recordLengthOk record = false then w.discardFrame lane
    else
      let w := w.hunt lane
      let tag := Bytes.u16At record 0
      match parseRecord .unit record with
      | none => w.send lane (.refuse tag ReplyCode.format.byte)
      | some r =>
        if (w.lane lane).length < Config.laneQueueCap then (w.append lane r).send lane (.accept tag)
        else w.send lane (.refuse tag ReplyCode.queueFull.byte)

/-- CANCEL_LANE from the unit of the lane; it has no reply (R80). -/
def execUnitCancelLane (lane : LaneId) (s : State) : Answer :=
  onWork s fun w => ((w.hunt lane).cancelLane s.env lane).1.finish s.env

/-- PAUSE from the unit of the lane; it has no reply (R90). -/
def execUnitPause (lane : LaneId) (s : State) : Answer :=
  onWork s fun w => ((w.hunt lane).pauseLane lane).finish s.env

/-- GO from the unit of the lane (R90): ACCEPT or REFUSE with tag 0, ahead of what the GO itself sends (R196). -/
def execUnitGo (lane : LaneId) (s : State) : Answer :=
  onWork s fun w =>
    let w := w.hunt lane
    match goRefusal s.env w [lane] with
    | some code => w.send lane (.refuse 0 code.byte)
    | none => ((w.send lane (.accept 0)).goLane s.env lane).finish s.env

/-- The lane whose step a READY or RESULT on a link serves, and whether it serves the follower side: a FOLLOWING
lane's messages go to its leader's step (R137, R140, R142). -/
def Work.owner (w : Work) (link : LaneId) : LaneId × Bool :=
  match (w.lane link).run, leaderOf link with
  | .following, some n => (n, true)
  | _, _ => (link, false)

/-- The side of a step that a message serves. -/
def CurStep.side (c : CurStep) (follower : Bool) : SideState := if follower then c.follower else c.leader

/-- Changes one side of a step. -/
def CurStep.onSide (c : CurStep) (follower : Bool) (f : SideState → SideState) : CurStep :=
  if follower then { c with follower := f c.follower } else { c with leader := f c.leader }

/-- The message names the current step's tag and attempt (R96, R100). -/
def CurStep.matches (c : CurStep) (tag : BitVec 16) (attempt : Byte) : Bool :=
  decide (c.step.tag = tag ∧ attempt.toNat = c.attempt)

/-- READY at a lane's current step (R96, R140): remembered in SWITCH and SETTLE, and in READY_WAIT the one that
completes the flags stops C3 and begins SOURCE. Any other is discarded with STALE on the link's lane. -/
def Work.takeReady (w : Work) (e : Env) (link : LaneId) (tag : BitVec 16) (attempt : Byte) : Work :=
  let (n, follower) := w.owner link
  match (w.lane n).cur with
  | none => w.raise (.stale link)
  | some c =>
    if c.matches tag attempt = true ∧ (c.side follower).ready = false
        ∧ (c.phase = .switch ∨ c.phase = .settle ∨ c.phase = .readyWait) then
      let c' := c.onSide follower fun x => { x with ready := true }
      let w := w.setCur n (some c')
      if c.phase = .readyWait ∧ c'.allReady = true then
        (w.onLane n fun l => { l with c3 := l.c3.stop }).beginSource e n c'
      else w
    else w.raise (.stale link)

/-- RESULT at a lane's current step (R100, R101, R142): held in SOURCE and GATE, and in RESULT_WAIT taken, where
the reading that completes the attempt stops C3 and starts evaluation. Any other is discarded with STALE on the
link's lane. -/
def Work.takeResult (w : Work) (e : Env) (link : LaneId) (tag : BitVec 16) (attempt : Byte) (r : Reading) :
    Work :=
  let (n, follower) := w.owner link
  match (w.lane n).cur with
  | none => w.raise (.stale link)
  | some c =>
    if c.matches tag attempt = true ∧ (c.phase = .source ∨ c.phase = .gate)
        ∧ (c.side follower).held = none then
      w.setCur n (some (c.onSide follower fun x => { x with held := some r }))
    else if c.matches tag attempt = true ∧ c.phase = .resultWait ∧ (c.side follower).reading = none then
      let c' := c.onSide follower fun x => { x with reading := some r }
      let w := w.setCur n (some c')
      if c'.allRead then (w.onLane n fun l => { l with c3 := l.c3.stop }).evaluate e n c' else w
    else w.raise (.stale link)

/-- READY (R96). -/
def execReady (lane : LaneId) (tag : BitVec 16) (attempt : Byte) (s : State) : Answer :=
  onWork s fun w => ((w.hunt lane).takeReady s.env lane tag attempt).finish s.env

/-- RESULT (R100); a flag that is none of the three codes is a malformed frame (R156, R195). -/
def execResult (lane : LaneId) (tag : BitVec 16) (attempt : Byte) (raw : BitVec 24) (flag : Byte) (s : State) :
    Answer :=
  onWork s fun w =>
    match readingFlagOf flag with
    | none => w.discardFrame lane
    | some f => ((w.hunt lane).takeResult s.env lane tag attempt ⟨raw.toInt, f⟩).finish s.env

/-- TOKEN from the unit of a lane (R149): a post with poster UNIT n, answered ACCEPT or REFUSE with tag 0. -/
def execUnitToken (lane : LaneId) (token code : Byte) (s : State) : Answer :=
  onWork s fun w =>
    let w := w.hunt lane
    match tokenOf token with
    | none => w.send lane (.refuse 0 ReplyCode.format.byte)
    | some k =>
      if w.tokens[k.val].isSome then w.send lane (.refuse 0 ReplyCode.overposted.byte)
      else ((w.send lane (.accept 0)).postToken k (.unit lane, code)).finish s.env

/-- LINK_FRAME_DISCARDED (R195). -/
def execLinkFrameDiscarded (lane : LaneId) (_type : Byte) (_body : List Byte) (s : State) : Answer :=
  onWork s fun w => w.discardFrame lane

/-- LINK_STOP_BIT_ERROR (R194): LINK_ERROR in either receiver state. -/
def execLinkStopBitError (lane : LaneId) (s : State) : Answer :=
  onWork s fun w => (w.onLane lane fun l => { l with arrived := none }).discardFrame lane

/-- The gap since the last byte of a frame in progress is over 20 µs (R194). -/
def Receiver.gapExceeded : Receiver → Bool
  | .inFrame _ gap => Config.gapClocks < gap
  | .hunting => false

/-- The message that the bytes taken make once the declared number of body bytes has come (R194, R195). -/
def Receiver.message (n : LaneId) : Receiver → Option Instr
  | .inFrame (type :: len :: body) _ =>
    if len.toNat ≤ body.length then some (decodeFrame n type (body.take len.toNat)) else none
  | _ => none

/-- LINK_GAP_TIMEOUT (R194). -/
def execLinkGapTimeout (lane : LaneId) (s : State) : Answer :=
  onWork s fun w => if (w.lane lane).rx.gapExceeded then w.discardFrame lane else w

/-- LINK_START_BYTE (R194): a HUNTING receiver is IN_FRAME; inside a frame 7Eh is an ordinary byte. -/
def execLinkStartByte (lane : LaneId) (s : State) : Answer :=
  onWork s fun w =>
    w.onLane lane fun l =>
      match l.rx with
      | .hunting => { l with rx := .inFrame [] 0, arrived := none }
      | .inFrame taken _ => { l with rx := .inFrame (taken ++ [0x7E]) 0, arrived := none }

/-- TRANSMIT_MESSAGE (R196): with the line free, the oldest message goes onto it. -/
def execTransmitMessage (lane : LaneId) (s : State) : Answer :=
  onWork s fun w =>
    w.onLane lane fun l =>
      match l.sending, l.tx with
      | none, m :: _ => { l with sending := some m.clocks }
      | _, _ => l

/-- TRANSMIT_END (R196): with its last byte out, the message leaves the list and the line is free. -/
def execTransmitEnd (lane : LaneId) (s : State) : Answer :=
  onWork s fun w =>
    w.onLane lane fun l =>
      if l.sending = some 0 then { l with tx := l.tx.tail, sending := none } else l

end Sys2Proof.Machine
end

