-- ==== Sys2Proof/Machine/Clock.lean ====
section
/-! DEFINITION. What the part does by itself while no command waits: the clock, the samples of the filtered
inputs, the bytes on the links, the channels' count ticks, and the choice of its own event that comes next (log
entries 1 and 2). -/

namespace Sys2Proof.Machine

/-! ### One clock of CLKIN -/

/-- A sample of a two-sample filter (R126): a second equal sample away from the level marks the change due. -/
def Filter.sample (f : Filter) (v : Bool) : Filter :=
  { f with last := v, due := v == f.last && v != f.level }

/-- The samples taken at a tick of the time base: STABLE and ABORT_N at every tick (R126, R179), SEATED at every
1,000th (R176). -/
def Inputs.tick (i : Inputs) : Inputs :=
  let stable :=
    #v[i.stable[0].sample i.stablePins[0], i.stable[1].sample i.stablePins[1],
      i.stable[2].sample i.stablePins[2], i.stable[3].sample i.stablePins[3]]
  if i.seatedTicks + 1 < Config.seatedPeriod then
    { i with stable, abortN := i.abortN.sample i.abortNPin, seatedTicks := i.seatedTicks + 1 }
  else
    { i with stable, abortN := i.abortN.sample i.abortNPin, seated := i.seated.sample i.seatedPin, seatedTicks := 0 }

/-- A lane's channels at a tick (R112, R113). -/
def Lane.tick (l : Lane) (t : Time) : Lane :=
  { l with c0 := l.c0.tick t, c1 := l.c1.tick t, c2 := l.c2.tick t, c3 := l.c3.tick t }

/-- The gap since the last byte of a frame grows by one clock (R194). -/
def Receiver.clock : Receiver → Receiver
  | .hunting => .hunting
  | .inFrame k gap => .inFrame k (gap + 1)

/-- The bytes still to come on a line after one clock. -/
def clockLine : List LineByte → List LineByte
  | [] => []
  | b :: bs => if b.wait ≤ 1 then bs else { b with wait := b.wait - 1 } :: bs

/-- The byte whose last bit comes at this clock. -/
def arriving : List LineByte → Option LineByte
  | [] => none
  | b :: _ => if b.wait ≤ 1 then some b else none

/-- A byte comes (R194): inside a frame, with its stop bit high and the gap before it within 20 µs, the receiver takes
it and its gap starts anew; any other byte waits for its event at this clock. That the gap runs from the last bit of one
byte to the last bit of the next, so that the 40 clocks of the next byte itself count toward the 1,000, is the model's
choice (DESIGN CHOICE, log entry 31). -/
def Lane.receive (l : Lane) (b : LineByte) : Lane :=
  match l.rx with
  | .inFrame taken gap =>
    if b.stop = true ∧ gap ≤ Config.gapClocks then { l with rx := .inFrame (taken ++ [b.value]) 0 }
    else { l with arrived := some b }
  | .hunting => { l with arrived := some b }

/-- A lane's link at one clock: the message on the line to the unit, and the gap of a frame in progress and the byte
that comes from the unit (R194, R196). -/
def Lane.clockLink (l : Lane) (b : Option LineByte) : Lane :=
  let l := { l with rx := l.rx.clock, arrived := none, sending := l.sending.map fun k => k - 1 }
  match b with
  | some b => l.receive b
  | none => l

/-- The relay chain engine at a tick: what waited for the next tick waits no more (R49, R51, R59). -/
def Chain.tick (c : Chain) : Chain :=
  { c with holdOff := false, closeHoldOff := false, requests := c.requests.map fun r => { r with fresh := false } }

/-- The links at one clock of CLKIN. -/
def clockLinks (s : State) : State :=
  { s with
    inputs := { s.inputs with lines := s.inputs.lines.map clockLine }
    work := { s.work with lanes := s.work.lanes.zipWith Lane.clockLink (s.inputs.lines.map arriving) } }

/-- The blocks of work at a tick of the time base. -/
def Work.tick (w : Work) (t : Time) : Work :=
  { w with lanes := w.lanes.map fun l => l.tick t, chain := w.chain.tick }

/-- One clock of CLKIN passes; every 50th is a tick of the time base (R1). The tick moves the channels' counts before
any event at the tick is taken, a stop, a settle test and READ_LANE among them (DESIGN CHOICE, log entry 29). -/
def advanceClock (s : State) : State :=
  let s := clockLinks s
  if s.clock.sub + 1 < Config.clocksPerTick then { s with clock := { s.clock with sub := s.clock.sub + 1 } }
  else
    let t := s.clock.time + 1
    { s with clock := ⟨t, 0⟩, inputs := s.inputs.tick, work := s.work.tick t }

/-! ### The part's own events that stand now -/

/-- An event that stands when its condition holds. -/
def standIf (b : Bool) (i : Instr) : List Instr := if b then [i] else []

/-- Changes of the filtered inputs (R126, R177, R179). -/
def Inputs.standing (i : Inputs) : List Instr :=
  (allLanes.flatMap fun n => standIf (i.stable[n.val]).due (.stableChange n (i.stable[n.val]).last))
  ++ standIf i.seated.due (if i.seated.last then .seatingChangeSeated else .seatingChangeUnseated)
  ++ standIf i.abortN.due (if i.abortN.last then .abortNRise else .abortNEdge)

/-- The end of the shift in progress, with the bits that the chain loop returns (R48, R50, R59). -/
def shiftStanding (e : Env) (w : Work) : List Instr :=
  match w.chain.shift with
  | some x =>
    standIf (reached x.ends e.now)
      (match x.kind with
        | .frame f => .frameShiftEnd (f.word ^^^ e.inputs.loop)
        | .abandoned => .shiftAbandonedEnd
        | .openAll _ => .openAllShiftEnd (openAllWord ^^^ e.inputs.loop))
  | none => []

/-- The events of the relay chain engine and the linger list (R31, R47, R53, R59, R60). -/
def chainStanding (e : Env) (w : Work) : List Instr :=
  (match completing e w with
    | some (.close _) => [.closeComplete]
    | some (.release _) => [.releaseComplete]
    | some .openAll => [.openAllComplete]
    | none => [])
  ++ shiftStanding e w
  ++ standIf (canBeginOpenAll e w) .openAllShiftBegin
  ++ standIf (lingerExpired e w).isSome .lingerExpiry

/-- The events of a lane's step: its channels' expiries and settle test by phase, and its admission (R74, R98,
R99, R102, R121, R122, R153). -/
def laneStanding (w : Work) (n : LaneId) : List Instr :=
  let l := w.lane n
  match l.curPhase with
  | .settle =>
    standIf l.c0.expiring (.fixedSettleExpiry n)
      ++ standIf (l.c0.counting && l.c0.due && l.c0.adaptive) (.adaptiveSettleEnd n)
  | .source => standIf l.c1.expiring (.sourceDelayExpiry n)
  | .gate => standIf l.c2.expiring (.gateExpiry n)
  | .tokenWait => standIf l.c3.expiring (.tokenTimeout n)
  | .readyWait => standIf l.c3.expiring (.timeout n)
  | .resultWait => standIf l.c3.expiring (.timeout n)
  | _ => standIf l.inAdmit (.admission n)

/-- The head of the frame queue may begin its shift (R47). -/
def frameStanding (e : Env) (w : Work) : List Instr :=
  match w.chain.queue with
  | f :: _ => standIf (canBeginShift e w f) .frameShiftBegin
  | [] => []

/-- The event of a byte that has come and that no frame took: a low stop bit, or 7Eh to a HUNTING receiver; any other
is ignored (R194). -/
def byteStanding (l : Lane) (n : LaneId) : List Instr :=
  match l.arrived with
  | some b =>
    if b.stop = false then [.linkStopBitError n]
    else standIf (decide (l.rx = .hunting ∧ b.value = 0x7E)) (.linkStartByte n)
  | none => []

/-- The events of a lane's link: the end and the start of a message, a complete frame, the gap fault and a byte that
has come (R194, R196). -/
def linkStanding (w : Work) (n : LaneId) : List Instr :=
  let l := w.lane n
  standIf (decide (l.sending = some 0)) (.transmitEnd n)
    ++ standIf (l.sending.isNone && !l.tx.isEmpty) (.transmitMessage n)
    ++ (l.rx.message n).toList ++ standIf l.rx.gapExceeded (.linkGapTimeout n) ++ byteStanding l n

/-- Every event of the part's own that stands at the present clock. -/
def standing (s : State) : List Instr :=
  s.inputs.standing
  ++ chainStanding s.env s.work
  ++ allLanes.flatMap (laneStanding s.work)
  ++ frameStanding s.env s.work
  ++ allLanes.flatMap (linkStanding s.work)

/-! ### Idling -/

/-- The part with no command waiting: one of its own events that stand comes to the queue, chosen by the race
key, and when none stands one clock passes (DESIGN CHOICE, log entries 1 and 2). -/
def idle (s : State) : State :=
  match standing s with
  | [] => advanceClock s
  | i :: is =>
    { s with
      pending := [(i :: is).getD (s.race % (is.length + 1)) i]
      race := s.race / (is.length + 1) }

end Sys2Proof.Machine
end

