-- ==== Sys2Proof/Machine/Dispatch.lean ====
section
/-! DEFINITION. The dispatch of a command to its meaning, one arm per row of spec/opcode_table.json. -/

namespace Sys2Proof.Machine

/-- The effect of one command on everything but the queue. -/
def exec (i : Instr) (s : State) : Host.Outcome State Fault Refusal :=
  match i with
  | .hardReset => Sys2Proof.Machine.execHardReset s
  | .postStep lane r => Sys2Proof.Machine.execPostStep lane r s
  | .cancelLane lane => Sys2Proof.Machine.execCancelLane lane s
  | .go mask => Sys2Proof.Machine.execGo mask s
  | .pause mask => Sys2Proof.Machine.execPause mask s
  | .configLane lane en fa ta g offset li low mode => Sys2Proof.Machine.execConfigLane lane en fa ta g offset li low mode s
  | .readLane lane => Sys2Proof.Machine.execReadLane lane s
  | .loadRegion region start size offset => Sys2Proof.Machine.execLoadRegion region start size offset s
  | .readRegion region => Sys2Proof.Machine.execReadRegion region s
  | .fixtureConfig nodeCount closeTime releaseTime => Sys2Proof.Machine.execFixtureConfig nodeCount closeTime releaseTime s
  | .setNode node bus => Sys2Proof.Machine.execSetNode node bus s
  | .freeNode node => Sys2Proof.Machine.execFreeNode node s
  | .readNode node => Sys2Proof.Machine.execReadNode node s
  | .takeResults count => Sys2Proof.Machine.execTakeResults count s
  | .ackNotice => Sys2Proof.Machine.execAckNotice s
  | .setMask masks => Sys2Proof.Machine.execSetMask masks s
  | .tokenPost token code => Sys2Proof.Machine.execTokenPost token code s
  | .tokenClear token code => Sys2Proof.Machine.execTokenClear token code s
  | .tokenRead token code => Sys2Proof.Machine.execTokenRead token code s
  | .lineWrite levels => Sys2Proof.Machine.execLineWrite levels s
  | .abortAll => Sys2Proof.Machine.execAbortAll s
  | .chainReset => Sys2Proof.Machine.execChainReset s
  | .clear => Sys2Proof.Machine.execClear s
  | .unknownRequestType type body => Sys2Proof.Machine.execUnknownRequestType type body s
  | .hostRequestAbandoned b => Sys2Proof.Machine.execHostRequestAbandoned b s
  | .post lane r => Sys2Proof.Machine.execPost lane r s
  | .unitCancelLane lane => Sys2Proof.Machine.execUnitCancelLane lane s
  | .unitPause lane => Sys2Proof.Machine.execUnitPause lane s
  | .unitGo lane => Sys2Proof.Machine.execUnitGo lane s
  | .ready lane tag attempt => Sys2Proof.Machine.execReady lane tag attempt s
  | .result lane tag attempt raw flag => Sys2Proof.Machine.execResult lane tag attempt raw flag s
  | .unitToken lane token code => Sys2Proof.Machine.execUnitToken lane token code s
  | .linkFrameDiscarded lane type body => Sys2Proof.Machine.execLinkFrameDiscarded lane type body s
  | .linkStopBitError lane => Sys2Proof.Machine.execLinkStopBitError lane s
  | .linkGapTimeout lane => Sys2Proof.Machine.execLinkGapTimeout lane s
  | .transmitMessage lane => Sys2Proof.Machine.execTransmitMessage lane s
  | .seatingChangeUnseated => Sys2Proof.Machine.execSeatingChangeUnseated s
  | .seatingChangeSeated => Sys2Proof.Machine.execSeatingChangeSeated s
  | .abortNEdge => Sys2Proof.Machine.execAbortNEdge s
  | .stableChange lane level => Sys2Proof.Machine.execStableChange lane level s
  | .frameShiftBegin => Sys2Proof.Machine.execFrameShiftBegin s
  | .frameShiftEnd echo => Sys2Proof.Machine.execFrameShiftEnd echo s
  | .shiftAbandonedEnd => Sys2Proof.Machine.execShiftAbandonedEnd s
  | .openAllShiftBegin => Sys2Proof.Machine.execOpenAllShiftBegin s
  | .openAllShiftEnd echo => Sys2Proof.Machine.execOpenAllShiftEnd echo s
  | .closeComplete => Sys2Proof.Machine.execCloseComplete s
  | .releaseComplete => Sys2Proof.Machine.execReleaseComplete s
  | .openAllComplete => Sys2Proof.Machine.execOpenAllComplete s
  | .lingerExpiry => Sys2Proof.Machine.execLingerExpiry s
  | .admission lane => Sys2Proof.Machine.execAdmission lane s
  | .fixedSettleExpiry lane => Sys2Proof.Machine.execFixedSettleExpiry lane s
  | .adaptiveSettleEnd lane => Sys2Proof.Machine.execAdaptiveSettleEnd lane s
  | .sourceDelayExpiry lane => Sys2Proof.Machine.execSourceDelayExpiry lane s
  | .gateExpiry lane => Sys2Proof.Machine.execGateExpiry lane s
  | .tokenTimeout lane => Sys2Proof.Machine.execTokenTimeout lane s
  | .timeout lane => Sys2Proof.Machine.execTimeout lane s
  | .abortNRise => Sys2Proof.Machine.execAbortNRise s
  | .linkStartByte lane => Sys2Proof.Machine.execLinkStartByte lane s
  | .transmitEnd lane => Sys2Proof.Machine.execTransmitEnd lane s

end Sys2Proof.Machine
end

