-- ==== Sys2Proof/Safety.lean ====
section
/-! DEFINITION. What counts as a sound state of the part: the capacities and the forms that every step keeps, and
the conditions that name a state between events. -/

namespace Sys2Proof.Machine

/-! ### Between events -/

/-- No trigger of R27 or R45 is left over from an event: the state of every part between two commands. -/
abbrev Work.rested (w : Work) : Prop := w.wake = false ∧ w.freed = false

/-- A rested part in which nobody waits for nodes or frame queue slots: no lane in the claim order list, no entry
in the waiting target list, no due node that is CLOSED. A trigger then finds nothing to hand out (R27, R45). -/
abbrev Work.calm (w : Work) : Prop :=
  w.wake = false ∧ w.freed = false ∧ w.nodes.order = [] ∧ w.chain.waiting = [] ∧ w.dueNodes = []

/-! ### Capacities and forms -/

/-- The capacities of the part and the forms of its lists that are true of a part by itself: the result queue (R169),
transmit lists (R196) and linger list (R30) within their lengths, the claim order list (R26) and the quiet holds
(R51) without repeats, and the node map in its canonical form. -/
structure Work.Sound (w : Work) : Prop where
  results : w.results.length ≤ Config.resultCap
  transmit : ∀ n : LaneId, (w.lane n).tx.length ≤ Config.transmitCap
  linger : w.nodes.linger.length ≤ Config.lingerCap
  order : w.nodes.order.Nodup
  holds : w.chain.holds.Nodup
  entries : entriesWf w.nodes.entries

/-- The frame queue's 64 places (R44), the waiting target list non-empty only while they are taken (R45), and no step
whose nodes repeat (R78), on which the places that a claim counts rest (R21). -/
structure Work.FramesFit (w : Work) : Prop where
  queue : w.chain.queue.length ≤ Config.frameQueueCap
  waiting : w.chain.waiting ≠ [] → w.chain.queue.length = Config.frameQueueCap
  nodes : ∀ (n : LaneId) (c : CurStep), (w.lane n).cur = some c → (c.nodes.map (·.1)).Nodup

/-- Every lane queue holds at most 64 records, the current step counted (R70). -/
abbrev Work.queuesFit (w : Work) : Prop := ∀ n : LaneId, (w.lane n).length ≤ Config.laneQueueCap

/-- The in-flight list holds at most 32 entries, with a place kept for the CLOSE or OPEN in shift (R47, R52). -/
abbrev Chain.inflightFits (c : Chain) : Prop :=
  c.inflight.length ≤ Config.inflightCap ∧
    ∀ f ends, c.shift = some ⟨.frame f, ends⟩ → c.inflight.length < Config.inflightCap

/-- No token is posted while a step in TOKEN_WAIT waits on it (R146). -/
abbrev Work.tokensFree (w : Work) : Prop :=
  ∀ k : Fin 32, w.tokens[k.val] ≠ none → w.waitingLanes k = []

/-- What the physical fixture relies on when a CLOSE or OPEN begins its shift (R47): the chain READY, nothing
shifting, a place in flight, no OPEN_ALL in flight, no quiet hold, and for a CLOSE the fixture SEATED and the node
OPEN. -/
abbrev mayShift (e : Env) (w : Work) (f : Frame) : Prop :=
  w.chain.shift = none ∧ w.chain.state = .ready ∧ w.chain.inflight.length < Config.inflightCap ∧
    (∀ p ∈ w.chain.inflight, p.1 ≠ .openAll) ∧ w.chain.holds = [] ∧
    ∀ n b, f = .close n b → e.isSeated = true ∧ (w.node n).phase = .opened

end Sys2Proof.Machine
end

