-- ==== Sys2Proof/WellFormed.lean ====
section
/-! DEFINITION. Which commands the port and the links can hand on: a request or message row holds operands that
its bytes could carry, and a row for a refused request or a discarded frame holds one that is refused or
discarded. -/

namespace Sys2Proof

/-- The bytes do not make a complete request (R190), so raising HCS_N abandons them. -/
def requestIncomplete (received : List Byte) : Bool :=
  decodeTransaction received == .hostRequestAbandoned received

/-- The check of one command. -/
def Instr.wellFormed (i : Instr) : Bool :=
  match i with
  | .postStep lane record => decodeRequest 0x01 (lane :: record) == .postStep lane record
  | .unknownRequestType type body => decodeRequest type body == .unknownRequestType type body
      || Config.hostBodyCap < body.length
  | .hostRequestAbandoned received => requestIncomplete received
  | .post _ record => recordLengthOk record && record.length ≤ 255
  | .result _ _ _ _ flag => flag.toNat ≤ 2
  | .linkFrameDiscarded lane type body =>
    decodeFrame lane type body == .linkFrameDiscarded lane type body && body.length ≤ 255
  | _ => true

/-- A value fits a signed 24-bit field. -/
def fits24 (v : Int) : Bool := decide (-8388608 ≤ v ∧ v ≤ 8388607)

/-- An optional limit fits its field. -/
def fitsLimit : Option Int → Bool
  | some v => fits24 v
  | none => true

/-- The fields of a step record lie in the ranges of R64. -/
def StepRecord.fits (r : StepRecord) : Bool :=
  decide (2 ≤ r.connections.length ∧ r.connections.length ≤ 16)
    && (r.connections.all fun k => decide (k.logical < 65536))
    && decide (r.range.toNat ≤ 15 ∧ r.settle < 65536 ∧ r.minSettle < 65536 ∧ r.sourceDelay < 65536
      ∧ r.gateWidth < 65536 ∧ 1 ≤ r.watch ∧ r.watch < 65536 ∧ r.repeats ≤ 3)
    && fitsLimit r.low && fitsLimit r.high && fitsLimit r.followerLow && fitsLimit r.followerHigh

end Sys2Proof
end

