-- ==== Sys2Proof/Certificates/Slice0/Obligations.lean ====
section
/-! DEFINITION. The statements for the provers. Each `def Obligations.<Name>` says what its name and docstring say; the
docstring names the rule it rests on. A statement that rests on a choice of the model says so. -/

open Sys2Proof Sys2Proof.Machine

/-! ### The step -/

/-- A step takes the command at the front of the queue and runs it with the queue's rest (the model's queue, log
entry 22). -/
def Obligations.StepRunsFrontCommand : Prop :=
  ∀ (s : State) (c : Instr) (rest : List Instr),
    step { s with pending := c :: rest } = exec c { s with pending := rest }

/-- With no command waiting and no event of the part's own standing, one clock of CLKIN passes, the time base gains
one at every 50th (R1), and nothing but clocks, filters, channels, links and the marks that wait for a tick changes
(log entry 1). At a tick STABLE and ABORT_N are sampled, SEATED at every 1,000th, and a filter's change is due when
two samples agree on a level other than the filtered one (R126, R176, R179). -/
def Obligations.IdlePassesOneClock : Prop :=
  ∀ s : State, s.pending = [] → standing s = [] →
    let sampled := fun (f : Machine.Filter) (v : Bool) => Machine.Filter.mk v f.level (decide (v = f.last ∧ v ≠ f.level))
    let soon := s.inputs.seatedTicks + 1 < 1000
    ∃ t, step s = .next t ∧ t.pending = [] ∧ t.race = s.race ∧ t.fix = s.fix ∧
      (s.clock.sub + 1 < 50 → t.clock = ⟨s.clock.time, s.clock.sub + 1⟩ ∧
        t.inputs = { s.inputs with lines := t.inputs.lines } ∧ t.work.chain = s.work.chain ∧
        ∀ n : LaneId, (t.work.lane n).c0 = (s.work.lane n).c0 ∧ (t.work.lane n).c1 = (s.work.lane n).c1 ∧
          (t.work.lane n).c2 = (s.work.lane n).c2 ∧ (t.work.lane n).c3 = (s.work.lane n).c3) ∧
      (50 ≤ s.clock.sub + 1 → t.clock = ⟨s.clock.time + 1, 0⟩ ∧
        (∀ n : LaneId, t.inputs.stable[n.val] = sampled s.inputs.stable[n.val] s.inputs.stablePins[n.val]) ∧
        t.inputs =
          { s.inputs with
            lines := t.inputs.lines, stable := t.inputs.stable
            abortN := sampled s.inputs.abortN s.inputs.abortNPin
            seated := if soon then s.inputs.seated else sampled s.inputs.seated s.inputs.seatedPin
            seatedTicks := if soon then s.inputs.seatedTicks + 1 else 0 } ∧
        t.work.chain =
          { s.work.chain with
            holdOff := false, closeHoldOff := false
            requests := s.work.chain.requests.map fun r => { r with fresh := false } } ∧
        ∀ n : LaneId, (t.work.lane n).c0 = (s.work.lane n).c0.tick (s.clock.time + 1) ∧
          (t.work.lane n).c1 = (s.work.lane n).c1.tick (s.clock.time + 1) ∧
          (t.work.lane n).c2 = (s.work.lane n).c2.tick (s.clock.time + 1) ∧
          (t.work.lane n).c3 = (s.work.lane n).c3.tick (s.clock.time + 1)) ∧
      t.work = { s.work with lanes := t.work.lanes, chain := t.work.chain } ∧
      ∀ n : LaneId, (t.work.lane n) =
        { s.work.lane n with
          c0 := (t.work.lane n).c0, c1 := (t.work.lane n).c1, c2 := (t.work.lane n).c2
          c3 := (t.work.lane n).c3, rx := (t.work.lane n).rx, arrived := (t.work.lane n).arrived
          sending := (t.work.lane n).sending }

/-- Every event of the part's own that stands can be the next: some race key brings it to the queue, with no time
passing. The order of events that fall together is left open by the spec (log entries 1 and 2). -/
def Obligations.EveryStandingEventCanComeNext : Prop :=
  ∀ (s : State) (i : Instr), s.pending = [] → i ∈ standing s →
    ∃ r, step { s with race := r } = .next { s with pending := [i], race := r / (standing s).length }

/-- Every command answers a next state, and none touches the command queue or the race key. -/
def Obligations.EveryCommandCompletesAndKeepsTheQueue : Prop :=
  ∀ (i : Instr) (s : State), ∃ t, exec i s = .next t ∧ t.pending = s.pending ∧ t.race = s.race

/-- What the host configures changes only through the request that owns it, or through hard reset: regions by
LOAD_REGION (R3), lane configurations by CONFIG_LANE (R83), the fixture node count and relay times by
FIXTURE_CONFIG (R40, R54), the notice masks by SET_MASK (R199). No command but hard reset changes the time base (R1).
That no command but hard reset changes the clock inside the microsecond, and none but hard reset and the five pin
events the pins, lines, loop and filters, is the model's choice (log entries 1, 4, 5 and 8). -/
def Obligations.ConfigurationAndTimeAreKept : Prop :=
  ∀ (i : Instr) (s t : State), exec i s = .next t → i ≠ .hardReset →
    ((∀ a b c d, i ≠ .loadRegion a b c d) → t.fix.regions = s.fix.regions) ∧
    ((∀ a b c d e f g h k, i ≠ .configLane a b c d e f g h k) → t.fix.lanes = s.fix.lanes) ∧
    ((∀ a b c, i ≠ .fixtureConfig a b c) →
      t.fix.nodeCount = s.fix.nodeCount ∧ t.fix.closeTime = s.fix.closeTime ∧
        t.fix.releaseTime = s.fix.releaseTime) ∧
    ((∀ a, i ≠ .setMask a) → t.fix.masks = s.fix.masks) ∧
    t.clock = s.clock ∧
    (i ≠ .seatingChangeUnseated → i ≠ .seatingChangeSeated → i ≠ .abortNEdge → i ≠ .abortNRise →
      (∀ n b, i ≠ .stableChange n b) → t.inputs = s.inputs)

/-! ### Invariants of every step -/

/-- Every step, idle steps included, keeps the capacities and forms of Work.Sound: at most 128 results (R169), at
most 32 messages in each transmit list (R196), at most 128 linger entries (R30), no lane twice in the claim order
list (R26) or among the quiet holds (R51), and the node map in its canonical form. It keeps those of Work.FramesFit
too: at most 64 frames in the frame queue (R44), a waiting target only while the queue is full (R45), and no step with
a node named twice (R78). -/
def Obligations.EveryStepKeepsSound : Prop :=
  ∀ s t : State, step s = .next t →
    (s.work.Sound → t.work.Sound) ∧ (s.work.Sound → s.work.FramesFit → t.work.FramesFit)

/-- The part right after hard reset is sound. -/
def Obligations.ResetIsSound : Prop :=
  State.reset.work.Sound ∧ State.reset.work.FramesFit ∧ State.reset.work.queuesFit ∧
    State.reset.work.chain.inflightFits ∧ State.reset.work.tokensFree ∧ State.reset.work.rested

/-- No lane queue ever holds more than 64 records (R70). -/
def Obligations.EveryStepKeepsQueuesWithin64 : Prop :=
  ∀ s t : State, s.work.queuesFit → step s = .next t → t.work.queuesFit

/-- The in-flight list never holds more than 32 entries: a shift in progress keeps its place (R47, R52). -/
def Obligations.EveryStepKeepsInflightWithin32 : Prop :=
  ∀ s t : State, s.work.chain.inflightFits → step s = .next t → t.work.chain.inflightFits

/-- No token is posted while a step in TOKEN_WAIT waits on it (R146). -/
def Obligations.EveryStepKeepsWaitedTokensUnposted : Prop :=
  ∀ s t : State, s.work.tokensFree → step s = .next t → t.work.tokensFree

/-- Between events no trigger of the claim arbiter is left over (R27, R45; log entry 14). -/
def Obligations.EveryStepEndsRested : Prop :=
  ∀ s t : State, s.work.rested → step s = .next t → t.work.rested

/-- A CLOSE or OPEN frame begins its shift only under R47: chain READY, nothing shifting, a place in flight and no
OPEN_ALL there, no quiet hold, and for a CLOSE a SEATED fixture and an OPEN node; whatever the step. -/
def Obligations.FramesShiftOnlyWhenAllowed : Prop :=
  ∀ (s t : State) (f : Frame) (ends : Time), step s = .next t → t.work.chain.shift = some ⟨.frame f, ends⟩ →
    s.work.chain.shift = some ⟨.frame f, ends⟩ ∨ mayShift s.env s.work f

/-! ### Encodings -/

/-- The bytes of every well-formed request, with any bytes behind it in the transaction, are read back as that request
(R190, R191, section 11.6), and the frame of every well-formed unit message as that message (R195). That a request of a
listed type which the port refuses for its length is read as UNKNOWN_REQUEST_TYPE is the model's choice (log
entry 7). -/
def Obligations.RequestsAndFramesReadBack : Prop :=
  ∀ i : Instr, i.wellFormed = true →
    (∀ (type : Byte) (body extra : List Byte), encodeRequest i = some (type, body) → body.length ≤ 512 →
      decodeTransaction (type :: Bytes.of16 (BitVec.ofNat 16 body.length) ++ body ++ extra) = i) ∧
    ∀ (lane : LaneId) (type : Byte) (body : List Byte), encodeFrame i = some (lane, type, body) →
      decodeFrame lane type body = i

/-- The bytes of every step record that fits its fields are read back as that record (R64, section 11.6). A record is
malformed just when one of the checks of R67 fails: counts, length, reserved bits, range, token numbers, role and side
codes. An accepted one has every field as sent at its place in section 11.6, an optional one absent where its presence
bit is 0, and only repeats and watch clamped (R66). -/
def Obligations.StepRecordsReadBackAndClamp : Prop :=
  (∀ r : StepRecord, r.fits = true → parseRecord r.origin (encodeRecord r) = some r) ∧
  (∀ (o : Origin) (b : List Byte),
    let at' := fun i => (Bytes.at' b i).toNat
    parseRecord o b = none ↔
      at' 35 < 2 ∨ 16 < at' 35 ∨ b.length ≠ 36 + 3 * at' 35 ∨
        32 ≤ at' 2 ∨ 16 ≤ at' 4 ∨ 64 ≤ at' 18 ∨ 8 ≤ at' 31 ∨
        (at' 18 / 16 % 2 = 1 ∧ 32 ≤ at' 32) ∨ (at' 18 / 32 % 2 = 1 ∧ 32 ≤ at' 33) ∨
        ∃ i, i < at' 35 ∧
          (5 ≤ at' (38 + 3 * i) % 8 ∨ 2 ≤ at' (38 + 3 * i) / 8 % 4 ∨ 32 ≤ at' (38 + 3 * i))) ∧
  ∀ (o : Origin) (b : List Byte) (r : StepRecord), parseRecord o b = some r →
    let has := fun k : Nat => (Bytes.at' b 18).getLsbD k = true
    let limit := fun k i : Nat => if has k then some (Bytes.u24At b i).toInt else none
    r.origin = o ∧ 2 ≤ r.connections.length ∧ r.connections.length ≤ 16 ∧
      b.length = 36 + 3 * r.connections.length ∧ r.range.toNat ≤ 15 ∧
      r.tag = Bytes.u16At b 0 ∧
      r.flags.fused = (Bytes.at' b 2).getLsbD 0 ∧ r.flags.quiet = (Bytes.at' b 2).getLsbD 1 ∧
      r.flags.releaseNow = (Bytes.at' b 2).getLsbD 2 ∧ r.flags.adaptive = (Bytes.at' b 2).getLsbD 3 ∧
      r.flags.coarse = (Bytes.at' b 2).getLsbD 4 ∧
      r.function = Bytes.at' b 3 ∧ r.range = Bytes.at' b 4 ∧ r.stimulus = Bytes.u24At b 5 ∧
      r.low = limit 0 19 ∧ r.high = limit 1 22 ∧ r.followerLow = limit 2 25 ∧ r.followerHigh = limit 3 28 ∧
      r.waitToken.map Fin.val = (if has 4 then some (Bytes.at' b 32).toNat else none) ∧
      r.postToken.map (fun p => (p.1.val, p.2)) =
        (if has 5 then some ((Bytes.at' b 33).toNat, Bytes.at' b 34) else none) ∧
      (∀ (i : Nat) (k : Connection), r.connections[i]? = some k →
        let code := (Bytes.at' b (38 + 3 * i)).toNat
        k.logical = (Bytes.u16At b (36 + 3 * i)).toNat ∧
          (match k.role with | .hi => 0 | .lo => 1 | .sh => 2 | .sl => 3 | .gd => 4) = code % 8 ∧
          (match k.side with | .leader => 0 | .follower => 1) = code / 8 % 4) ∧
      r.repeats = min (Bytes.at' b 31).toNat 3 ∧ r.repeats ≤ 3 ∧
      r.watch = (if (Bytes.u16At b 16).toNat = 0 then 1 else (Bytes.u16At b 16).toNat) ∧ 1 ≤ r.watch ∧
      r.settle = (Bytes.u16At b 8).toNat ∧ r.minSettle = (Bytes.u16At b 10).toNat ∧
      r.sourceDelay = (Bytes.u16At b 12).toNat ∧ r.gateWidth = (Bytes.u16At b 14).toNat

/-! ### Configuration requests -/

/-- LOAD_REGION (R4, R5, R6): a region number above 7 is FORMAT; otherwise the low three bits are discarded, a size
of 0 invalidates the record, values out of range are REGION_RANGE, and else the record is replaced whole. -/
def Obligations.LoadRegionReplacesOrRefuses : Prop :=
  ∀ (s : State) (region : Byte) (start size offset : BitVec 16),
    let st := start.toNat / 8 * 8
    let sz := size.toNat / 8 * 8
    let of := offset.toNat / 8 * 8
    let refuse := fun code => Host.Outcome.next { s with work := s.work.reply 0x07 code [] }
    let load := fun (h : region.toNat < 8) r =>
      Host.Outcome.next
        { s with
          fix := { s.fix with regions := s.fix.regions.set region.toNat r }
          work := s.work.reply 0x07 .ok [] }
    (8 ≤ region.toNat → exec (.loadRegion region start size offset) s = refuse .format) ∧
    ∀ h : region.toNat < 8,
      (sz = 0 → exec (.loadRegion region start size offset) s = load h ⟨false, 0, 0, 0⟩) ∧
      (sz ≠ 0 → (4096 < sz ∨ 65536 < st + sz ∨ 4088 < of) →
        exec (.loadRegion region start size offset) s = refuse .regionRange) ∧
      (sz ≠ 0 → sz ≤ 4096 → st + sz ≤ 65536 → of ≤ 4088 →
        exec (.loadRegion region start size offset) s = load h ⟨true, st, sz, of⟩)

/-- Translation of a logical node (R2, R9, R10, R11, R12): the first valid region whose window from its start on holds it
gives the physical node offset + (L − start), which is NODE_RANGE at or above the fixture node count, whatever a later
region would give; with no such region the node is UNMAPPED. -/
def Obligations.TranslationTakesTheFirstMatchingRegion : Prop :=
  ∀ (fix : Fixed) (l : Nat),
    let window := fun k : Fin 8 =>
      let r := fix.regions[k.val]
      r.valid = true ∧ r.start ≤ l ∧ l < r.start + r.size
    let matching := fun k : Fin 8 => window k ∧ ∀ j : Fin 8, j < k → ¬ window j
    (∀ k : Fin 8, matching k →
      let p := (fix.regions[k.val]).offset + (l - (fix.regions[k.val]).start)
      translate fix l = if p < fix.nodeCount then .ok p else .error .nodeRange) ∧
    ((∀ k : Fin 8, ¬ window k) → translate fix l = .error .unmapped) ∧
    ((∃ k : Fin 8, window k) → ∃ k : Fin 8, matching k)

/-- The admission checks in their order (R74): FUSE (R75), ROLES (R76), LIMITS (R77), translation in list order and
DUPLICATE (R78). The code of a rejection is that of the first check that fails, and a step passes with its nodes in list
order, each with its required bus (R20). -/
def Obligations.AdmissionChecksInOrder : Prop :=
  ∀ (fix : Fixed) (n : LaneId) (r : StepRecord),
    let fuse := r.flags.fused = false ∨ ((n = 0 ∨ n = 2) ∧ (fix.lanes[(n + 1).val]).enabled = true)
    let side := fun x : Side =>
      if r.flags.fused then r.connections.filter fun k => decide (k.side = x)
      else if x = .leader then r.connections else []
    let count := fun (x : Side) (o : Role) => ((side x).filter fun k => decide (k.role = o)).length
    let roles := count .leader .hi = 1 ∧ count .leader .lo = 1 ∧ count .leader .sh ≤ 1 ∧
      count .leader .sl = count .leader .sh ∧
      (r.flags.fused = true → side .follower ≠ [] ∧ ∀ o, o ≠ .gd → count .follower o ≤ 1)
    let limits := (∀ l h, r.low = some l → r.high = some h → l ≤ h) ∧
      (r.flags.fused = true → ∀ l h, r.followerLow = some l → r.followerHigh = some h → l ≤ h)
    let bus := fun k : Connection =>
      5 * (if r.flags.fused = true ∧ k.side = .follower then n.val + 1 else n.val) +
        match k.role with | .hi => 0 | .lo => 1 | .sh => 2 | .sl => 3 | .gd => 4
    (¬ fuse → admissionCheck fix n r = .error .fuse) ∧
    (fuse → ¬ roles → admissionCheck fix n r = .error .roles) ∧
    (fuse → roles → ¬ limits → admissionCheck fix n r = .error .limits) ∧
    (fuse → roles → limits →
      (∀ pre k post err, r.connections = pre ++ k :: post → (∀ j ∈ pre, ∃ p, translate fix j.logical = .ok p) →
        translate fix k.logical = .error err → admissionCheck fix n r = .error err) ∧
      (∀ ps : List Nat, r.connections.map (fun k => translate fix k.logical) = ps.map Except.ok →
        (¬ ps.Nodup → admissionCheck fix n r = .error .duplicate) ∧
        (ps.Nodup → ∃ nodes, admissionCheck fix n r = .ok nodes ∧ nodes.map (·.1) = ps ∧
          nodes.map (fun p => p.2.val) = r.connections.map bus)))

/-- CONFIG_LANE (R84, R110): FORMAT for a value outside its set, LANE_ACTIVE unless the lane is STOPPED, PAUSED or
HALTED with no step in progress; otherwise all eight fields are replaced, and MANUAL to AUTO drives both lines low. -/
def Obligations.ConfigLaneReplacesAllFields : Prop :=
  ∀ (s : State) (lane en fa ta : Byte) (gain : BitVec 16) (offset : BitVec 24) (linger : BitVec 16)
    (low mode : Byte),
    let bad := 4 ≤ lane.toNat ∨ 2 ≤ en.toNat ∨ 2 ≤ fa.toNat ∨ 2 ≤ ta.toNat ∨ 2 ≤ mode.toNat ∨ 64 ≤ low.toNat ∨
      offset.toInt = -8388608
    (bad → exec (.configLane lane en fa ta gain offset linger low mode) s =
      .next { s with work := s.work.reply 0x05 .format [] }) ∧
    (¬ bad → ∀ n : LaneId, n.val = lane.toNat →
      let l := s.work.lane n
      let idle := (l.run = .stopped ∨ l.run = .paused ∨ l.run = .halted) ∧ l.cur = none
      let manual := (s.fix.lanes[n.val]).lineMode = .manual
      (¬ idle → exec (.configLane lane en fa ta gain offset linger low mode) s =
        .next { s with work := s.work.reply 0x05 .laneActive [] }) ∧
      (idle → exec (.configLane lane en fa ta gain offset linger low mode) s =
        .next
          { s with
            fix :=
              { s.fix with
                lanes := s.fix.lanes.set n.val
                  { enabled := en.toNat = 1
                    failAction := if fa.toNat = 1 then .halt else .continue'
                    timeoutAction := if ta.toNat = 1 then .halt else .substitute
                    gain := gain.toNat, offset := offset.toInt, linger := linger.toNat, lowWater := low.toNat
                    lineMode := if mode.toNat = 1 then .manual else .auto } }
            work :=
              (if manual ∧ mode.toNat = 0 then s.work.setLane n { l with src := false, gate := false }
                else s.work).reply 0x05 .ok [] }))

/-- FIXTURE_CONFIG (R40): FORMAT for values out of range, LANE_ACTIVE while a lane works or a node is in use;
otherwise the three values take effect together. -/
def Obligations.FixtureConfigSetsThreeValues : Prop :=
  ∀ (s : State) (count close release : BitVec 16),
    let good := count.toNat % 64 = 0 ∧ 64 ≤ count.toNat ∧ count.toNat ≤ 4096 ∧ 1 ≤ close.toNat ∧
      close.toNat ≤ 1023 ∧ 1 ≤ release.toNat ∧ release.toNat ≤ 1023
    let idle := (∀ n : LaneId, (s.work.lane n).run = .stopped ∧ (s.work.lane n).cur = none) ∧
      ∀ n, (s.work.node n).phase = .opened ∧ (s.work.node n).holder = .none
    entriesWf s.work.nodes.entries →
    (¬ good → exec (.fixtureConfig count close release) s =
      .next { s with work := s.work.reply 0x09 .format [] }) ∧
    (good → ¬ idle → exec (.fixtureConfig count close release) s =
      .next { s with work := s.work.reply 0x09 .laneActive [] }) ∧
    (good → idle → exec (.fixtureConfig count close release) s =
      .next
        { s with
          fix :=
            { s.fix with
              nodeCount := count.toNat, closeTime := close.toNat, releaseTime := release.toNat }
          work := s.work.reply 0x09 .ok [] })

/-- LINE_WRITE (R109): every lane in MANUAL line mode drives its SRC and GATE to the levels given, a lane in AUTO mode
keeps its lines, and the reply is OK. -/
def Obligations.LineWriteDrivesManualLanes : Prop :=
  ∀ (s : State) (levels : Byte),
    ∃ t, exec (.lineWrite levels) s = .next t ∧
      t = { s with work := { s.work with lanes := t.work.lanes, port := t.work.port } } ∧
      t.work.port = ⟨some ⟨0x11, .ok, []⟩, false⟩ ∧
      ∀ n : LaneId, t.work.lane n =
        if (s.fix.lanes[n.val]).lineMode = .manual then
          { s.work.lane n with src := levels.getLsbD n.val, gate := levels.getLsbD (n.val + 4) }
        else s.work.lane n

/-- The notice table (R197, R198, R199). ACK_NOTICE returns and empties the first unmasked source with pending causes, in
priority order, with the set of sources still pending, and answers NONE with that set when there is none. SET_MASK with
a reserved bit is FORMAT, and otherwise replaces all six masks and answers with the pending sources; hard reset sets the
masks and CLEAR keeps them. NOTICE_N is low just while an unmasked source has a pending cause. -/
def Obligations.NoticesAreMaskedAndAcknowledged : Prop :=
  ∀ s : State,
    (∀ k : Fin 6, s.fix.masks.getLsbD k.val = false → s.work.notices[k.val] ≠ 0 →
      (∀ j : Fin 6, j < k → s.fix.masks.getLsbD j.val = true ∨ s.work.notices[j.val] = 0) →
      ∃ b : Byte,
        exec .ackNotice s =
          .next
            { s with
              work :=
                ({ s.work with notices := s.work.notices.set k.val 0 }).reply 0x0E .ok
                  [BitVec.ofNat 8 k.val, (s.work.notices[k.val]).setWidth 8, b] } ∧
        ∀ i : Nat, b.getLsbD i = true ↔ i ≠ k.val ∧ ∃ h : i < 6, s.work.notices[i] ≠ 0) ∧
    ((∀ j : Fin 6, s.fix.masks.getLsbD j.val = true ∨ s.work.notices[j.val] = 0) →
      ∃ b : Byte, exec .ackNotice s = .next { s with work := s.work.reply 0x0E .none [b] } ∧
        ∀ i : Nat, b.getLsbD i = true ↔ ∃ h : i < 6, s.work.notices[i] ≠ 0) ∧
    (∀ masks : Byte,
      (64 ≤ masks.toNat → exec (.setMask masks) s = .next { s with work := s.work.reply 0x0F .format [] }) ∧
      (masks.toNat < 64 → ∃ b : Byte,
        exec (.setMask masks) s =
          .next
            { s with
              fix := { s.fix with masks := BitVec.ofNat 6 masks.toNat }, work := s.work.reply 0x0F .ok [b] } ∧
        ∀ i : Nat, b.getLsbD i = true ↔ ∃ h : i < 6, s.work.notices[i] ≠ 0)) ∧
    (noticeLow s.fix s.work = true ↔ ∃ k : Fin 6, s.fix.masks.getLsbD k.val = false ∧ s.work.notices[k.val] ≠ 0) ∧
    (∃ t, exec .hardReset s = .next t ∧ t.fix.masks = 0x3F) ∧ ∃ t, exec .clear s = .next t ∧ t.fix.masks = s.fix.masks

/-! ### Posting -/

/-- POST_STEP (R68): FORMAT for a lane above 3 or a malformed record, QUEUE_FULL at 64 records; otherwise the record
joins the tail of the lane's queue with origin HOST, and nothing else changes but the reply. -/
def Obligations.PostStepAppendsAtTheTail : Prop :=
  ∀ (s : State) (lane : Byte) (record : List Byte),
    (4 ≤ lane.toNat ∨ parseRecord .host record = none →
      exec (.postStep lane record) s = .next { s with work := s.work.reply 0x01 .format [] }) ∧
    ∀ (n : LaneId) (r : StepRecord), n.val = lane.toNat → parseRecord .host record = some r →
      (64 ≤ (s.work.lane n).length →
        exec (.postStep lane record) s = .next { s with work := s.work.reply 0x01 .queueFull [] }) ∧
      ((s.work.lane n).length < 64 →
        exec (.postStep lane record) s =
          .next
            { s with
              work :=
                (s.work.setLane n { s.work.lane n with queue := (s.work.lane n).queue ++ [r] }).reply
                  0x01 .ok [] })

/-- POST from a unit (R69, R195): a bad length discards the frame with LINK_ERROR; a malformed record and a full queue
are answered REFUSE, and otherwise the record joins the queue with origin UNIT and ACCEPT joins the transmit list. An
answer that finds 32 messages in the list is dropped with LINK_ERROR, the queue as without it (R196). -/
def Obligations.UnitPostAppendsAndAccepts : Prop :=
  ∀ (s : State) (n : LaneId) (record : List Byte),
    let l := s.work.lane n
    let answer := fun (q : List StepRecord) (m : UnitMessage) =>
      Host.Outcome.next
        { s with
          work :=
            if l.tx.length < 32 then s.work.setLane n { l with queue := q, rx := .hunting, tx := l.tx ++ [m] }
            else
              { s.work.setLane n { l with queue := q, rx := .hunting } with
                notices := s.work.notices.set (n.val + 1) (s.work.notices[n.val + 1] ||| 16) } }
    (recordLengthOk record = false →
      exec (.post n record) s =
        .next { s with work := (s.work.setLane n { l with rx := .hunting }).raise (.linkError n) }) ∧
    (recordLengthOk record = true → parseRecord .unit record = none →
      exec (.post n record) s = answer l.queue (.refuse (Bytes.u16At record 0) 0x01)) ∧
    (∀ r, parseRecord .unit record = some r → 64 ≤ l.length →
      exec (.post n record) s = answer l.queue (.refuse r.tag 0x02)) ∧
    (∀ r, parseRecord .unit record = some r → l.length < 64 →
      exec (.post n record) s = answer (l.queue ++ [r]) (.accept r.tag))

/-! ### Reset and the readouts -/

/-- Hard reset (R1, R3, R17, R43, R83, R85, R111, R146, R169, R176, R179, R194, R196, R197): every register takes its
value after hard reset; the levels at the pins, the bytes on the lines, the echo path, the command queue and the race
key stay (the model's choice, log entries 4, 5, 8 and 21). -/
def Obligations.HardResetRestoresEveryBlock : Prop :=
  ∀ s : State, ∃ t, exec .hardReset s = .next t ∧ t.clock = ⟨0, 0⟩ ∧
    ((∀ k : Fin 8, t.fix.regions[k.val] = ⟨false, 0, 0, 0⟩) ∧
      (∀ n : LaneId, t.fix.lanes[n.val] = ⟨false, .continue', .halt, 32768, 0, 2000, 0, .auto⟩) ∧
      t.fix.nodeCount = 4096 ∧ t.fix.closeTime = 400 ∧ t.fix.releaseTime = 200 ∧ t.fix.masks = 0x3F) ∧
    ((∀ n, t.work.node n = ⟨.opened, none, .none, none, false, none⟩ ∧ t.work.lingering n = none) ∧
      t.work.nodes.order = [] ∧ t.work.nodes.lastWinner = 3) ∧
    (t.work.chain.state = .starting ∧ t.work.chain.queue = [] ∧ t.work.chain.waiting = [] ∧
      t.work.chain.shift = none ∧ t.work.chain.requests = [⟨.startup, true⟩] ∧ t.work.chain.inflight = [] ∧
      t.work.chain.holds = [] ∧ t.work.chain.holdOff = false ∧ t.work.chain.closeHoldOff = false) ∧
    (∀ n : LaneId,
      let l := t.work.lane n
      l.run = .stopped ∧ l.cur = none ∧ l.queue = [] ∧ l.pendingHold = false ∧ l.frozen = false ∧
        l.remembered = none ∧ l.src = false ∧ l.gate = false ∧ l.rx = .hunting ∧ l.arrived = none ∧ l.tx = [] ∧
        l.sending = none ∧ ∀ ch ∈ [l.c0, l.c1, l.c2, l.c3], ch.counting = false ∧ ch.count = 0 ∧ ch.coarse = false ∧
          ch.start = none ∧ ch.adaptive = false ∧ ch.cap = 0 ∧ ch.minimum = 0) ∧
    ((∀ k : Fin 32, t.work.tokens[k.val] = none) ∧ t.work.results = [] ∧ t.work.lastDelivering = 3 ∧
      (∀ k : Fin 6, t.work.notices[k.val] = 0) ∧ t.work.port = ⟨none, false⟩) ∧
    ((∀ n : LaneId, t.inputs.stable[n.val] = ⟨false, false, false⟩) ∧ t.inputs.seated = ⟨false, false, false⟩ ∧
      t.inputs.abortN = ⟨true, true, false⟩ ∧ t.inputs.seatedTicks = 0) ∧
    t.inputs.seatedPin = s.inputs.seatedPin ∧ t.inputs.abortNPin = s.inputs.abortNPin ∧
      t.inputs.stablePins = s.inputs.stablePins ∧ t.inputs.lines = s.inputs.lines ∧ t.inputs.loop = s.inputs.loop ∧
      t.pending = s.pending ∧ t.race = s.race

/-- READ_LANE, READ_NODE and READ_REGION (R131, R39, R8, section 11.6): a number out of range is FORMAT; otherwise the
reply carries the state of the lane or node, or the region record as held, byte by byte, and nothing but the reply
changes. That an admission not yet taken reads phase ADMIT with the head record's tag and attempt 0 is the model's
reading (DEDUCED, log entry 6), and that the byte valid reads 1 for yes its choice (log entry 27). -/
def Obligations.ReadoutsShowTheState : Prop :=
  ∀ s : State,
    (∀ lane : Byte,
      (4 ≤ lane.toNat → exec (.readLane lane) s = .next { s with work := s.work.reply 0x06 .format [] }) ∧
      ∀ n : LaneId, n.val = lane.toNat →
        let l := s.work.lane n
        ∃ b : List Byte, exec (.readLane lane) s = .next { s with work := s.work.reply 0x06 .ok b } ∧
          b.length = 18 ∧
          Bytes.at' b 0 = BitVec.ofNat 8 l.run.code ∧
          Bytes.at' b 1 = (match l.remembered with | some r => BitVec.ofNat 8 r.code | none => 0xFF) ∧
          Bytes.at' b 2 = (if l.inAdmit then 1 else BitVec.ofNat 8 l.curPhase.code) ∧
          Bytes.at' b 3 = (match l.cur.bind (·.resume) with | some r => BitVec.ofNat 8 r.code | none => 0xFF) ∧
          (∀ c, l.cur = some c → Bytes.u16At b 4 = c.step.tag ∧ Bytes.at' b 6 = BitVec.ofNat 8 c.attempt) ∧
          (∀ r, l.inAdmit = true → l.queue.head? = some r → Bytes.u16At b 4 = r.tag ∧ Bytes.at' b 6 = 0) ∧
          (l.cur = none → l.inAdmit = false → Bytes.at' b 6 = 0xFF) ∧
          (∀ i : Nat, (Bytes.at' b 7).getLsbD i =
            ([l.c0.counting, l.c1.counting, l.c2.counting, l.c3.counting].getD i false)) ∧
          Bytes.u16At b 8 = BitVec.ofNat 16 l.c0.count ∧ Bytes.u16At b 10 = BitVec.ofNat 16 l.c1.count ∧
          Bytes.u16At b 12 = BitVec.ofNat 16 l.c2.count ∧ Bytes.u16At b 14 = BitVec.ofNat 16 l.c3.count ∧
          (∀ i : Nat, (Bytes.at' b 16).getLsbD i =
            ([(s.inputs.stable[n.val]).level, l.src, l.gate].getD i false)) ∧
          Bytes.at' b 17 = lane) ∧
    (∀ node : BitVec 16,
      (4096 ≤ node.toNat → exec (.readNode node) s = .next { s with work := s.work.reply 0x0C .format [] }) ∧
      (node.toNat < 4096 →
        let n := node.toNat
        let x := s.work.node n
        ∃ b : List Byte, exec (.readNode node) s = .next { s with work := s.work.reply 0x0C .ok b } ∧
          b.length = 14 ∧ Bytes.u16At b 0 = node ∧
          Bytes.at' b 2 = BitVec.ofNat 8 x.phase.code ∧
          Bytes.at' b 3 = (match x.bus with | some k => BitVec.ofNat 8 k.val | none => 0xFF) ∧
          Bytes.at' b 4 = (match x.holder with
            | .lane a => BitVec.ofNat 8 a.val | .manual => 4 | .none => 0xFF) ∧
          Bytes.at' b 5 = (match x.target with | some k => BitVec.ofNat 8 k.val | none => 0xFF) ∧
          Bytes.at' b 6 = (match x.waiter with | some a => BitVec.ofNat 8 a.val | none => 0xFF) ∧
          (∀ i : Nat, (Bytes.at' b 7).getLsbD i =
            ([(s.work.lingering n).isSome, x.due, s.work.chain.openQueued n,
              s.work.chain.closeQueued n].getD i false)) ∧
          (∀ t : Time, s.work.lingering n = some t →
            Bytes.u16At b 8 = if reached t s.clock.time then 0 else BitVec.ofNat 16 (t - s.clock.time).toNat) ∧
          (s.work.lingering n = none → Bytes.u16At b 8 = 0) ∧
          ∀ i : Fin 4, Bytes.at' b (10 + i.val) =
            match s.work.nodes.order[i.val]? with | some a => BitVec.ofNat 8 a.val | none => 0xFF)) ∧
    ∀ region : Byte,
      (8 ≤ region.toNat → exec (.readRegion region) s = .next { s with work := s.work.reply 0x08 .format [] }) ∧
      ∀ h : region.toNat < 8,
        let r := s.fix.regions[region.toNat]
        exec (.readRegion region) s =
          .next
            { s with
              work :=
                s.work.reply 0x08 .ok
                  ([if r.valid then 1 else 0] ++ Bytes.of16 (BitVec.ofNat 16 r.start)
                    ++ Bytes.of16 (BitVec.ofNat 16 r.size) ++ Bytes.of16 (BitVec.ofNat 16 r.offset)) }

/-! ### The node map -/

/-- The claim table (R22): what taking one node for a holder does, row by row, to the node, its linger entry, the
frame queue and the shift in progress; every other node and everything else of the part stays. -/
def Obligations.ClaimTableTakesANode : Prop :=
  ∀ (w : Work) (h : Holder) (n : Nat) (b : Fin 20),
    let x := w.node n
    let t := w.takeNode h n b
    let lingers := t.nodes.linger = w.nodes.linger
    let unlingered := t.nodes.linger = w.nodes.linger.filter fun p => p.1 != n
    (∀ m, m ≠ n → t.node m = w.node m) ∧
    t = { w with nodes := { w.nodes with entries := t.nodes.entries, linger := t.nodes.linger }
                 chain := { w.chain with queue := t.chain.queue, shift := t.chain.shift }
                 wake := t.wake, freed := t.freed } ∧
    (x.phase = .opened → x.target = none →
      t.node n = { x with holder := h, target := some b } ∧ lingers ∧
        t.chain = { w.chain with queue := w.chain.queue ++ [.close n b] }) ∧
    (x.phase = .closed → x.bus = some b → w.chain.openQueued n = false → (w.lingering n).isSome →
      t.node n = { x with holder := h } ∧ unlingered ∧ t.lingering n = none ∧ t.chain = w.chain) ∧
    (x.phase = .closed → x.bus = some b → w.chain.openQueued n = false → w.lingering n = none → x.due = true →
      t.node n = { x with holder := h, due := false } ∧ lingers ∧ t.chain = w.chain) ∧
    (x.phase = .closed → x.bus = some b → w.chain.openQueued n = true →
      t.node n = { x with holder := h } ∧ lingers ∧ t.wake = true ∧ t.freed = true ∧
        t.chain =
          { w.chain with
            queue := w.chain.queue.filter (· != .opn n)
            shift :=
              match w.chain.shift with
              | some ⟨.frame f, ends⟩ => some ⟨if f = .opn n then .abandoned else .frame f, ends⟩
              | y => y }) ∧
    (x.phase = .closed → x.bus ≠ some b → w.chain.openQueued n = false →
      ((w.lingering n).isSome ∨ x.due = true) →
      t.node n = { x with holder := h, due := false, target := some b } ∧ unlingered ∧ t.lingering n = none ∧
        t.chain = { w.chain with queue := w.chain.queue ++ [.opn n] }) ∧
    (x.phase = .closed → x.bus ≠ some b → w.chain.openQueued n = true →
      t.node n = { x with holder := h, target := some b } ∧ lingers ∧ t.chain = w.chain) ∧
    (x.phase = .opening → t.node n = { x with holder := h, target := some b } ∧ lingers ∧ t.chain = w.chain) ∧
    (x.phase = .closing → x.due = true → x.bus = some b →
      t.node n = { x with holder := h, due := false } ∧ lingers ∧ t.chain = w.chain) ∧
    (x.phase = .closing → x.due = true → x.bus ≠ some b →
      t.node n = { x with holder := h, target := some b } ∧ lingers ∧ t.chain = w.chain)

/-- The release table (R28, R29, R38): what the release of one node does, entry by entry, with all other nodes, lists
and frames as they were. A node that is CLOSED with no target becomes due with no expiry given, and otherwise lingers
behind every entry that expires no later; past 128 entries the first leaves the list and its node is due (R30). A
step's release takes the nodes its lane still holds, in list order and no others, with one expiry: the time base plus the
lane's linger time, and none, so that the node is due, with RELEASE_NOW or a linger time of 0. -/
def Obligations.ReleaseTableFreesANode : Prop :=
  (∀ (w : Work) (e : Env) (a : LaneId) (c : CurStep),
    let linger := (e.fix.lanes[a.val]).linger
    let expiry : Option Time :=
      if c.step.flags.releaseNow = true ∨ linger = 0 then none else some (e.clock.time + BitVec.ofNat 32 linger)
    lingerUntil e a c.step = expiry ∧
    (c.nodes = [] → w.releaseStep e a c = w) ∧
    ∀ p rest, c.nodes = p :: rest →
      w.releaseStep e a c =
        (if (w.node p.1).holder = .lane a then w.releaseNode p.1 expiry else w).releaseStep e a
          { c with nodes := rest }) ∧
  ∀ (w : Work) (n : Nat) (linger : Option Time),
    let x := w.node n
    let t := w.releaseNode n linger
    let free := { x with holder := .none, target := none }
    let alone := (∀ m, m ≠ n → t.node m = w.node m) ∧ t.nodes.linger = w.nodes.linger
    t = { w with nodes := { w.nodes with entries := t.nodes.entries, linger := t.nodes.linger }
                 chain := { w.chain with queue := t.chain.queue, waiting := t.chain.waiting, shift := t.chain.shift }
                 wake := true, freed := t.freed } ∧
    (x.phase = .closed → x.target = none → linger = none →
      t.node n = { free with due := true } ∧ alone ∧ t.chain = w.chain) ∧
    (∀ e, x.phase = .closed → x.target = none → linger = some e →
      t.chain = w.chain ∧
        ∃ pre post, w.nodes.linger = pre ++ post ∧
          (∀ p ∈ pre, earlier e p.2 = false) ∧ (∀ p, post.head? = some p → earlier e p.2 = true) ∧
          (w.nodes.linger.length < 128 → t.nodes.linger = pre ++ (n, e) :: post ∧ t.node n = free ∧
            ∀ m, m ≠ n → t.node m = w.node m) ∧
          (128 ≤ w.nodes.linger.length → ∀ k u rest, pre ++ (n, e) :: post = (k, u) :: rest →
            t.nodes.linger = rest ∧ t.node k = { (if k = n then free else w.node k) with due := true } ∧
              (k ≠ n → t.node n = free) ∧ ∀ m, m ≠ n → m ≠ k → t.node m = w.node m)) ∧
    (x.phase = .closing → x.target = none → t.node n = { free with due := true } ∧ alone ∧ t.chain = w.chain) ∧
    (x.phase = .closing → x.target ≠ none → t.node n = free ∧ alone ∧ t.chain = w.chain) ∧
    (∀ b, x.phase = .opened → x.target = some b → w.chain.closeQueued n = true →
      t.node n = free ∧ alone ∧ t.freed = true ∧
        t.chain =
          { w.chain with
            queue := w.chain.queue.filter (· != .close n b)
            shift :=
              match w.chain.shift with
              | some ⟨.frame f, ends⟩ => some ⟨if f = .close n b then .abandoned else .frame f, ends⟩
              | y => y }) ∧
    (x.phase = .opened → x.target ≠ none → w.chain.closeQueued n = false →
      t.node n = free ∧ alone ∧
        t.chain = { w.chain with waiting := w.chain.waiting.filter fun p => p.1 != n }) ∧
    (x.phase = .opening → t.node n = free ∧ alone ∧ t.chain = w.chain) ∧
    (x.phase = .closed → x.target ≠ none → t.node n = free ∧ alone ∧ t.chain = w.chain)

/-- A failed claim (R20, R21, R24): with a node blocked, its holder MANUAL or another lane or its waiter another lane, or with too few free slots, no queue, lane or table changes and
every node keeps all but its waiter mark; a mark is placed or moved on blocked nodes alone. -/
def Obligations.FailedClaimChangesOnlyMarks : Prop :=
  ∀ (w : Work) (e : Env) (a : LaneId) (c : CurStep), (w.lane a).cur = some c →
    let t := (w.tryClaim e a).1
    let blocked := fun n => n ∈ c.nodes.map (·.1) ∧
      ((w.node n).holder = .manual ∨ (∃ b, (w.node n).holder = .lane b ∧ b ≠ a) ∨
        ∃ b, (w.node n).waiter = some b ∧ b ≠ a)
    let claims := (w.lane a).run = .running ∧ c.phase = .claim ∧ a ∈ w.nodes.order
    ((∃ n, blocked n) → t = { w with nodes := { w.nodes with entries := t.nodes.entries } } ∧
      (∀ n, t.node n = { w.node n with waiter := (t.node n).waiter }) ∧
      (∀ n, ¬ blocked n → t.node n = w.node n)) ∧
    (claims → ∀ n, blocked n → (c.nodes.map (·.1)).Nodup →
      (t.node n).waiter =
        match (w.node n).waiter with
        | none => some a
        | some b => if w.nodes.order.idxOf a < w.nodes.order.idxOf b then some a else some b) ∧
    ((∀ n, ¬ blocked n) →
      w.chain.freeSlots < c.nodes.countP (fun p => (w.claimRow p.1 p.2).needsFrame) → t = w)

/-- SET_NODE (R37): FORMAT and UNSEATED whatever else stands, then BUSY for a node that a lane holds or waits for, that
is held MANUAL on another bus, or that needs a frame with no slot free, and otherwise the claim of the node with holder
MANUAL by the table of R22; a hold that stands on the bus changes nothing. Lanes may be waiting for nodes all the while; the
claim that withdraws an OPEN frame (row 4) is stated where none does. -/
def Obligations.SetNodeHoldsByTheClaimTable : Prop :=
  ∀ (s : State) (node : BitVec 16) (bus : Byte),
    let n := node.toNat
    let x := s.work.node n
    let answer := fun (w : Work) code => Host.Outcome.next { s with work := w.reply 0x0A code [] }
    (20 ≤ bus.toNat ∨ s.fix.nodeCount ≤ n → exec (.setNode node bus) s = answer s.work .format) ∧
    ∀ b : Fin 20, b.val = bus.toNat → n < s.fix.nodeCount →
      (s.inputs.seated.level = false → exec (.setNode node bus) s = answer s.work .unseated) ∧
      (s.inputs.seated.level = true → s.work.rested →
        ((∃ a, x.holder = .lane a) ∨ x.waiter ≠ none → exec (.setNode node bus) s = answer s.work .busy) ∧
        (x.holder = .manual → x.waiter = none →
          exec (.setNode node bus) s =
            answer s.work (if x.bus = some b ∨ x.target = some b then .ok else .busy)) ∧
        (x.holder = .none → x.waiter = none →
          let short := (s.work.claimRow n b).needsFrame = true ∧ s.work.chain.freeSlots = 0
          (short → exec (.setNode node bus) s = answer s.work .busy) ∧
          (¬ short → s.work.calm ∨ ¬ (x.bus = some b ∧ s.work.chain.openQueued n = true) →
            exec (.setNode node bus) s = answer { s.work.takeNode .manual n b with wake := false, freed := false } .ok)))

/-- FREE_NODE (R38): FORMAT above 4,095, BUSY for a lane's node, OK with no change for a free node; a MANUAL hold that
is CLOSED becomes due and takes a free slot with its OPEN frame (R32), and one whose CLOSE is queued is withdrawn. -/
def Obligations.FreeNodeReleasesAManualHold : Prop :=
  ∀ (s : State) (node : BitVec 16),
    let n := node.toNat
    let x := s.work.node n
    let free := { x with holder := .none, target := none }
    let answer := fun (w : Work) code => Host.Outcome.next { s with work := w.reply 0x0B code [] }
    (4096 ≤ n → exec (.freeNode node) s = answer s.work .format) ∧
    (n < 4096 →
      (∀ a, x.holder = .lane a → exec (.freeNode node) s = answer s.work .busy) ∧
      (x.holder = .none → exec (.freeNode node) s = answer s.work .ok) ∧
      (x.holder = .manual → s.work.calm →
        (x.phase = .closed → x.target = none → s.work.chain.queue.length < 64 → ∃ w : Work,
          exec (.freeNode node) s = answer w .ok ∧
            w = { s.work with nodes := { s.work.nodes with entries := w.nodes.entries }
                              chain := { s.work.chain with queue := s.work.chain.queue ++ [.opn n] } } ∧
            w.node n = { free with due := false } ∧ ∀ m, m ≠ n → w.node m = s.work.node m) ∧
        (∀ b, x.phase = .opened → x.target = some b → s.work.chain.closeQueued n = true →
          s.work.chain.shift = none → ∃ w : Work,
          exec (.freeNode node) s = answer w .ok ∧
            w = { s.work with nodes := { s.work.nodes with entries := w.nodes.entries }
                              chain := { s.work.chain with
                                queue := s.work.chain.queue.filter (· != .close n b) } } ∧
            w.node n = free ∧ ∀ m, m ≠ n → w.node m = s.work.node m)))

/-- LINGER_EXPIRY (R31, R32): the first entry of the linger list leaves it and its node becomes due; with a slot free
the CLOSED node's OPEN frame is queued and the due flag cleared, and with none it stays due. No pass is made. That a second
entry of the same expiry stays in the list meanwhile, one event for each entry in list order and due processing after
each, is the model's choice (log entry 24). -/
def Obligations.LingerExpiryMakesTheNodeDue : Prop :=
  ∀ (s : State) (n : Nat) (t : Time) (rest : List (Nat × Time)),
    s.work.nodes.linger = (n, t) :: rest → reached t s.clock.time = true →
    s.work.chain.waiting = [] → s.work.dueNodes = [] → (s.work.node n).phase = .closed →
    let slot := s.work.chain.queue.length < 64
    ∃ w : Work, exec .lingerExpiry s = .next { s with work := w } ∧
      w = { s.work with nodes := { s.work.nodes with entries := w.nodes.entries, linger := rest }
                        chain := { s.work.chain with
                          queue := s.work.chain.queue ++ (if slot then [.opn n] else []) } } ∧
      w.node n = { s.work.node n with due := if slot then false else true } ∧
      ∀ m, m ≠ n → w.node m = s.work.node m

/-! ### The relay chain engine -/

/-- FRAME_SHIFT_BEGIN and SHIFT_ABANDONED_END (R42, R47, R50): the head frame begins a shift of 2 µs when the
conditions of R47 hold on a tick and no hold was released since the last one (R51); an abandoned shift that has run out
frees the chain and does nothing else. -/
def Obligations.FramesBeginAndAbandonedShiftsEnd : Prop :=
  ∀ s : State,
    (∀ (f : Frame) (rest : List Frame), s.work.chain.queue = f :: rest → s.clock.sub = 0 → mayShift s.env s.work f →
      s.work.chain.holdOff = false →
      (∀ n b, f = .close n b → s.work.chain.closeHoldOff = false) →
      exec .frameShiftBegin s =
        .next
          { s with
            work :=
              { s.work with
                chain := { s.work.chain with shift := some ⟨.frame f, s.clock.time + 2⟩ } } }) ∧
    (s.work.chain.holdOff = true → exec .frameShiftBegin s = .next s) ∧
    (∀ ends : Time, s.work.chain.shift = some ⟨.abandoned, ends⟩ → reached ends s.clock.time = true →
      s.work.rested → s.work.chain.holds = [] →
      exec .shiftAbandonedEnd s =
        .next { s with work := { s.work with chain := { s.work.chain with shift := none } } })

/-- FRAME_SHIFT_END with a good echo (R18, R48, R52, R54, R55): the frame leaves the queue, its node goes CLOSING on the
bus or OPENING, and its operation joins the in-flight list in completion order, timed by the relay time in force. -/
def Obligations.GoodFramesTakeEffect : Prop :=
  ∀ (s : State) (f : Frame) (ends : Time), s.work.calm →
    s.work.chain.shift = some ⟨.frame f, ends⟩ → reached ends s.clock.time = true →
    let x := s.work.node f.node
    let entry : Operation × Time :=
      match f with
      | .close n _ => (.close n, s.clock.time + BitVec.ofNat 32 s.fix.closeTime)
      | .opn n => (.release n, s.clock.time + BitVec.ofNat 32 s.fix.releaseTime)
    let after : NodeEntry :=
      match f with
      | .close _ b => { x with phase := .closing, bus := some b, target := none }
      | .opn _ => { x with phase := .opening }
    x.phase = (match f with | .close _ _ => .opened | .opn _ => .closed) →
    ∃ w : Work, exec (.frameShiftEnd f.word) s = .next { s with work := w } ∧
      w = { s.work with
            nodes := { s.work.nodes with entries := w.nodes.entries }
            chain :=
              { s.work.chain with
                queue := s.work.chain.queue.filter (· != f), shift := none, inflight := w.chain.inflight } } ∧
      w.node f.node = after ∧ (∀ m, m ≠ f.node → w.node m = s.work.node m) ∧
      ∃ pre post, s.work.chain.inflight = pre ++ post ∧ w.chain.inflight = pre ++ entry :: post ∧
        (∀ p ∈ pre, earlier entry.2 p.2 = false) ∧ ∀ p, post.head? = some p → earlier entry.2 p.2 = true

/-- A mismatch (R55, R56, R57, R63, R181). In READY, on a CLOSE, an OPEN or a checked OPEN_ALL, it is a chain fault: the
frame's own effect stands (R18, R48, R19, R59), the chain goes FAULT with one unchecked OPEN_ALL asked for, and CHAIN_FAULT
is raised on the SAFETY source. On the OPEN_ALL of start-up or CHAIN_RESET the chain is FAULT with CHAIN_FAULT raised,
nothing more is asked for, and a CHAIN_RESET that waits is answered CHAIN_FAULT. Each runs the safety abort on all lanes
(R182 to R185, R145): with no step a lane goes HELD unless STOPPED; a step at or before CLAIM, or kept, is kept; one past
CLAIM is delivered ABORTED. A chain fault's own OPEN_ALL is not compared. That the unchecked OPEN_ALL takes the place of any
request still to begin is the model's reading (DEDUCED, log entry 11). -/
def Obligations.MismatchInReadyIsAChainFault : Prop :=
  ∀ (s : State) (ends : Time) (echo : BitVec 32), reached ends s.clock.time = true →
    let raised := s.work.notices.set 0 (s.work.notices[0] ||| 8)
    let keeps := fun a : LaneId =>
      match (s.work.lane a).cur with | some c => decide (c.phase ≠ .deliver) | none => false
    let keepsFused := fun a : LaneId =>
      match (s.work.lane a).cur with | some c => c.step.flags.fused && decide (c.phase ≠ .deliver) | none => false
    let point := fun c : CurStep =>
      if c.step.flags.fused then ResumePoint.fuseWait
      else match c.phase with
        | .fuseWait => .fuseWait | .tokenWait => .tokenWait | .claim => .claim | _ => c.resume.getD .claim
    let hit := fun l : Lane =>
      match l.cur with
      | none => if l.run = .stopped then l else { l with run := .held, remembered := none }
      | some c =>
        if c.phase = .deliver then { l with pendingHold := true }
        else
          { l with
            run := .held, remembered := none, cur := some { c with phase := .none, resume := some (point c) }
            c0 := l.c0.stop, c1 := l.c1.stop, c2 := l.c2.stop, c3 := l.c3.stop }
    -- The safety abort of the lanes at the event, after its effect on the nodes, the linger list, the chain and the port.
    let aborts := fun (i : Instr) (effect : Nat → NodeEntry) (linger : List (Nat × Time)) (chain : Chain) (port : Port) =>
      (s.work.rested → chain.waiting = [] → (∀ m, ¬ ((effect m).due = true ∧ (effect m).phase = .closed)) →
        (∀ n : LaneId, (s.work.lane n).cur = none) →
        ∃ w : Work, exec i s = .next { s with work := w } ∧
          w = { s.work with
                lanes := w.lanes, nodes := { s.work.nodes with entries := w.nodes.entries, linger := linger }
                chain := chain, notices := raised, port := port } ∧
          (∀ m, w.node m = effect m) ∧ ∀ n : LaneId, w.lane n = hit (s.work.lane n)) ∧
      (s.work.rested → chain.waiting = [] → (∀ m, ¬ ((effect m).due = true ∧ (effect m).phase = .closed)) →
        (∀ (n : LaneId) (c : CurStep), (s.work.lane n).cur = some c →
          c.phase = .none ∨ c.phase = .fuseWait ∨ c.phase = .tokenWait ∨ c.phase = .claim ∨
            (c.phase = .deliver ∧ 128 ≤ s.work.results.length)) →
        (∀ a ∈ s.work.nodes.order, keeps a = true) →
        ∃ w : Work, exec i s = .next { s with work := w } ∧
          w = { s.work with
                lanes := w.lanes
                nodes := { s.work.nodes with entries := w.nodes.entries, linger := linger, order := [] }
                chain := chain, notices := raised, port := port } ∧
          (∀ n : LaneId, w.lane n =
            { hit (s.work.lane n) with
              frozen :=
                if (n = 1 ∧ keepsFused 0 = true) ∨ (n = 3 ∧ keepsFused 2 = true) then false
                else (s.work.lane n).frozen }) ∧
          ∀ m, w.node m =
            { effect m with
              waiter :=
                match (effect m).waiter with
                | some a => if keeps a = true then none else some a
                | none => none }) ∧
      ∀ (n : LaneId) (c : CurStep), (s.work.lane n).cur = some c → c.phase.pastClaim = true →
        (∀ m, m ≠ n → (s.work.lane m).cur = none) → (c.step.flags.fused = true → n = 0 ∨ n = 2) →
        c.step.origin = .host → (∀ m : LaneId, (s.work.lane m).tx.length < 32) → (s.work.lane n).frozen = false →
        s.work.nodes.order = [] → s.work.results.length < 128 →
        let auto := fun m : LaneId => (s.fix.lanes[m.val]).lineMode = .auto
        let ended := fun m : LaneId =>
          let l := s.work.lane m
          if c.step.flags.fused = true ∧ m = n + 1 then
            { l with
              frozen := false, c1 := l.c1.stop, c2 := l.c2.stop, tx := l.tx ++ [.cancel c.step.tag c.attempt]
              src := if auto m then false else l.src, gate := if auto m then false else l.gate }
          else l
        ∃ w : Work, exec i s = .next { s with work := w } ∧
          w.results = s.work.results ++ [c.toRecord n .aborted] ∧
          (w.lane n).cur = none ∧ (w.lane n).run = .held ∧ (w.lane n).pendingHold = false ∧
          (w.lane n).tx = (s.work.lane n).tx ++ [.cancel c.step.tag c.attempt] ∧
          (auto n → (w.lane n).src = false ∧ (w.lane n).gate = false) ∧
          (∀ m, m ≠ n → w.lane m = hit (ended m)) ∧
          (∀ k, (w.node k).holder =
            if k ∈ c.nodes.map (·.1) ∧ (effect k).holder = .lane n then .none else (effect k).holder) ∧
          n ∉ w.chain.holds
    (∀ f : Frame, s.work.chain.shift = some ⟨.frame f, ends⟩ → s.work.chain.state = .ready → echo ≠ f.word →
      (∃ w : Work, exec (.frameShiftEnd echo) s = .next { s with work := w } ∧
        w.chain.state = .fault ∧ w.chain.requests = [⟨.unchecked, true⟩] ∧ w.chain.shift = none ∧
        w.notices[0] = s.work.notices[0] ||| 8 ∧ w.port = s.work.port ∧
        (s.env.inflightOf f).1 ∈ w.chain.inflight.map (·.1)) ∧
      let entry : Operation × Time :=
        match f with
        | .close n _ => (.close n, s.clock.time + BitVec.ofNat 32 s.fix.closeTime)
        | .opn n => (.release n, s.clock.time + BitVec.ofNat 32 s.fix.releaseTime)
      let effect := fun m : Nat =>
        let x := s.work.node m
        if m = f.node then
          match f with
          | .close _ b => { x with phase := .closing, bus := some b, target := none }
          | .opn _ => { x with phase := .opening }
        else x
      entriesWf s.work.nodes.entries →
      (s.work.node f.node).phase = (match f with | .close _ _ => .opened | .opn _ => .closed) →
      ∀ pre post, s.work.chain.inflight = pre ++ post → (∀ p ∈ pre, earlier entry.2 p.2 = false) →
        (∀ p, post.head? = some p → earlier entry.2 p.2 = true) →
        (∃ w : Work, exec (.frameShiftEnd echo) s = .next { s with work := w } ∧
          (∀ m, (w.node m).phase = (effect m).phase ∧ (w.node m).bus = (effect m).bus) ∧
          w.chain.inflight = pre ++ entry :: post ∧
          ((∀ n b, f = .close n b → (n, b) ∉ s.work.chain.waiting) → f ∉ w.chain.queue)) ∧
        aborts (.frameShiftEnd echo) effect s.work.nodes.linger
          { s.work.chain with
            state := .fault, queue := s.work.chain.queue.filter (· != f), shift := none
            requests := [⟨.unchecked, true⟩], inflight := pre ++ entry :: post } s.work.port) ∧
    (∀ k : OpenAllKind, s.work.chain.shift = some ⟨.openAll k, ends⟩ → echo ≠ openAllWord →
      let requests := if k = .checked then [⟨.unchecked, true⟩] else s.work.chain.requests
      let port : Port :=
        if k ≠ .checked ∧ s.work.port.awaiting = true then ⟨some ⟨0x13, .chainFault, []⟩, false⟩ else s.work.port
      let inflight := [(Operation.openAll, s.clock.time + BitVec.ofNat 32 s.fix.releaseTime)]
      let effect := fun m : Nat =>
        let x := s.work.node m
        { x with
          phase := if x.phase = .opened then .opened else .opening
          holder := .none, target := none, due := false, waiter := none }
      ((k = .checked ∧ s.work.chain.state = .ready) ∨ k = .startup ∨ k = .chainReset →
        (∃ w : Work, exec (.openAllShiftEnd echo) s = .next { s with work := w } ∧
          w.chain.state = .fault ∧ w.chain.requests = requests ∧ w.chain.shift = none ∧ w.chain.queue = [] ∧
          w.chain.waiting = [] ∧ w.chain.inflight = inflight ∧ w.nodes.linger = [] ∧
          w.notices[0] = s.work.notices[0] ||| 8 ∧ w.port = port ∧
          (entriesWf s.work.nodes.entries → ∀ m, w.node m = effect m)) ∧
        (entriesWf s.work.nodes.entries →
          aborts (.openAllShiftEnd echo) effect []
            { s.work.chain with
              state := .fault, queue := [], waiting := [], shift := none, requests := requests, inflight := inflight }
            port)) ∧
      (k = .unchecked → exec (.openAllShiftEnd echo) s = exec (.openAllShiftEnd openAllWord) s))

/-- OPEN_ALL (R19, R59, R61, R62, R63): its shift begins on a tick after the request, or at the end of the OPEN_ALL that
was shifting at the request, cutting off a CLOSE or OPEN; at its shift end with a good echo every node not OPEN is
OPENING with holder, target, due flag, mark and linger entry gone, the queues are empty, the in-flight list is its own
entry, and start-up and CHAIN_RESET take the chain to READY with the reply that was awaited. -/
def Obligations.OpenAllShiftsAndClearsTheMap : Prop :=
  ∀ (s : State) (k : OpenAllKind),
    (∀ rest : List Request, s.work.chain.requests = ⟨k, false⟩ :: rest → s.clock.sub = 0 →
      (∀ j ends, s.work.chain.shift ≠ some ⟨.openAll j, ends⟩) →
      exec .openAllShiftBegin s =
        .next
          { s with
            work :=
              { s.work with
                chain :=
                  { s.work.chain with
                    shift := some ⟨.openAll k, s.clock.time + 2⟩, requests := rest } } }) ∧
    (∀ rest : List Request, s.work.chain.requests = ⟨k, true⟩ :: rest → exec .openAllShiftBegin s = .next s) ∧
    (∀ ends : Time, s.work.chain.shift = some ⟨.openAll k, ends⟩ → reached ends s.clock.time = true →
      s.work.nodes.order = [] → entriesWf s.work.nodes.entries →
      let restarts := k = .startup ∨ k = .chainReset
      ∃ w : Work, exec (.openAllShiftEnd openAllWord) s = .next { s with work := w } ∧
        w = { s.work with
              nodes := { s.work.nodes with entries := w.nodes.entries, linger := [] }
              chain :=
                { s.work.chain with
                  state := if restarts then .ready else s.work.chain.state
                  queue := [], waiting := [], shift := none
                  inflight := [(.openAll, s.clock.time + BitVec.ofNat 32 s.fix.releaseTime)] }
              port :=
                if restarts ∧ s.work.port.awaiting = true then ⟨some ⟨0x13, .ok, []⟩, false⟩ else s.work.port
              wake := false, freed := false } ∧
        ∀ n, w.node n =
          { phase := if (s.work.node n).phase = .opened then .opened else .opening
            bus := (s.work.node n).bus, holder := .none, target := none, due := false, waiter := none })

/-- Completions (R18, R53, R60): a close takes its node CLOSED, and a due one gets its OPEN frame where a slot is free
(R32); a release takes its node OPEN and queues the CLOSE onto its target, which joins the waiting target list while the
queue holds 64 frames (R46); an OPEN_ALL takes every OPENING node OPEN; each leaves the in-flight list. A close of a lane's
node that leaves another of its claim open changes nothing at the lane; the last close of a claim ends SWITCH (R23, R94): C0 starts in the step's settle mode, and a settle that ends at its start goes on to READY_WAIT, or
with READY received to SOURCE (R95, R98, R121, R122). -/
def Obligations.CompletionsSettleNodes : Prop :=
  ∀ (s : State) (o : Operation) (t : Time) (rest : List (Operation × Time)), s.work.rested →
    s.work.nodes.order = [] → s.work.dueNodes = [] →
    s.work.chain.holds = [] → entriesWf s.work.nodes.entries →
    s.work.chain.inflight = (o, t) :: rest → reached t s.clock.time = true →
    let counts := fun (a : LaneId) (p : Nat × Fin 20) =>
      (s.work.node p.1).phase = .closed ∧ (s.work.node p.1).bus = some p.2 ∧ (s.work.node p.1).target = none ∧
        (s.work.node p.1).holder = .lane a
    let closesNow := fun (n : Nat) (p : Nat × Fin 20) =>
      p.1 = n ∧ (s.work.node n).bus = some p.2 ∧ (s.work.node n).target = none
    let full := 64 ≤ s.work.chain.queue.length
    (∀ n, o = .close n → s.work.chain.waiting = [] → (s.work.node n).phase = .closing →
      (∀ a c, (s.work.node n).holder = .lane a → (s.work.lane a).cur = some c → c.phase = .switch →
        ∃ p ∈ c.nodes, ¬ counts a p ∧ ¬ closesNow n p) →
      ∃ w : Work, exec .closeComplete s = .next { s with work := w } ∧
        w = { s.work with
              nodes := { s.work.nodes with entries := w.nodes.entries }
              chain :=
                { s.work.chain with
                  inflight := rest
                  queue := s.work.chain.queue ++ if (s.work.node n).due = true ∧ ¬ full then [.opn n] else [] } } ∧
        w.node n =
          { s.work.node n with phase := .closed, due := if full then (s.work.node n).due else false } ∧
        ∀ m, m ≠ n → w.node m = s.work.node m) ∧
    (∀ n b, o = .release n → (s.work.node n).phase = .opening → (s.work.node n).target = some b → full →
      ∃ w : Work, exec .releaseComplete s = .next { s with work := w } ∧
        w = { s.work with
              nodes := { s.work.nodes with entries := w.nodes.entries }
              chain :=
                { s.work.chain with inflight := rest, waiting := s.work.chain.waiting ++ [(n, b)] } } ∧
        w.node n = { s.work.node n with phase := .opened, bus := none } ∧ ∀ m, m ≠ n → w.node m = s.work.node m) ∧
    (s.work.chain.waiting = [] →
      (∀ n a c, o = .close n → (s.work.node n).phase = .closing → (s.work.node n).holder = .lane a →
        (s.work.node n).due = false → (s.work.node n).target = none →
        (s.work.lane a).cur = some c → c.phase = .switch →
        (∀ p ∈ c.nodes, counts a p ∨ closesNow n p) →
        let l := s.work.lane a
        let closes := fun k : Lane => ∃ w : Work, exec .closeComplete s = .next { s with work := w } ∧
          w = { s.work with lanes := w.lanes, nodes := { s.work.nodes with entries := w.nodes.entries }
                            chain := { s.work.chain with inflight := rest } } ∧
          w.lane a = k ∧ (∀ b, b ≠ a → w.lane b = s.work.lane b) ∧
          w.node n = { s.work.node n with phase := .closed } ∧ ∀ m, m ≠ n → w.node m = s.work.node m
        let up := c.step.flags.adaptive
        let settled := c.step.minSettle = 0 ∧ (s.inputs.stable[a.val]).level = true
        let c0 :=
          if up then Channel.startUp s.clock c.step.flags.coarse c.settle c.step.minSettle
          else Channel.startDown s.clock c.step.flags.coarse c.settle
        (c.settle ≠ 0 → ¬ (up = true ∧ settled) →
          closes { l with cur := some { c with phase := .settle }, c0 := c0 }) ∧
        ∀ capped : Bool,
          (up = false ∧ c.settle = 0 ∧ capped = false) ∨ (up = true ∧ settled ∧ capped = false) ∨
            (up = true ∧ ¬ settled ∧ c.settle = 0 ∧ capped = true) →
          let d := { c with captured := some 0, capped := capped }
          let ended := { c0 with counting := false, start := none, due := false }
          (c.leader.ready = false →
            closes
              { l with
                cur := some { d with phase := .readyWait }, c0 := ended
                c3 := Channel.startDown s.clock c.step.flags.coarse c.step.watch }) ∧
          (c.leader.ready = true → c.step.flags.fused = false → c.step.sourceDelay ≠ 0 →
            (s.fix.lanes[a.val]).lineMode = .auto →
            closes
              { l with
                cur := some { d with phase := .source }, c0 := ended, src := true, gate := false
                c1 := Channel.startDown s.clock c.step.flags.coarse c.step.sourceDelay })) ∧
      (∀ n, o = .release n → (s.work.node n).phase = .opening → s.work.chain.queue.length < 64 →
        ∃ w : Work, exec .releaseComplete s = .next { s with work := w } ∧
          w = { s.work with
                nodes := { s.work.nodes with entries := w.nodes.entries }
                chain :=
                  { s.work.chain with
                    inflight := rest
                    queue :=
                      s.work.chain.queue
                        ++ match (s.work.node n).target with | some b => [.close n b] | none => [] } } ∧
          w.node n = { s.work.node n with phase := .opened, bus := none } ∧ ∀ m, m ≠ n → w.node m = s.work.node m) ∧
      (o = .openAll → (∀ n, (s.work.node n).phase = .opening → (s.work.node n).target = none) →
        ∃ w : Work, exec .openAllComplete s = .next { s with work := w } ∧
          w = { s.work with nodes := { s.work.nodes with entries := w.nodes.entries }
                            chain := { s.work.chain with inflight := rest } } ∧
          ∀ n, w.node n =
            if (s.work.node n).phase = .opening then { s.work.node n with phase := .opened, bus := none }
            else s.work.node n))

/-- CHAIN_RESET (R61, R63): in READY OK and nothing shifted; in STARTING the reply waits for the start-up OPEN_ALL; in
FAULT it waits for a checked OPEN_ALL, which begins at the end of an OPEN_ALL that is shifting and otherwise from the
next tick. That it stands behind an unchecked OPEN_ALL still to begin is the model's choice (log entry 26). -/
def Obligations.ChainResetRepliesByChainState : Prop :=
  ∀ s : State,
    (s.work.chain.state = .ready →
      exec .chainReset s = .next { s with work := s.work.reply 0x13 .ok [] }) ∧
    (s.work.chain.state = .starting →
      exec .chainReset s = .next { s with work := { s.work with port := ⟨none, true⟩ } }) ∧
    (s.work.chain.state = .fault → s.work.chain.resetting = false →
      exec .chainReset s =
        .next
          { s with
            work :=
              { s.work with
                chain :=
                  { s.work.chain with
                    requests :=
                      s.work.chain.requests ++ [⟨.chainReset, !s.work.chain.shiftingOpenAll⟩] }
                port := ⟨none, true⟩ } })

/-! ### Tokens, results and notices -/

/-- TOKEN from the host and from a unit (R147, R149, R150): a token above 31 is FORMAT, a posted token keeps its post
against another, and with no step waiting a post stands with its poster; clear unposts and read only reads, both
returning the fields as they stood. That an accepted post's reply carries the fields after the post is the model's
reading (log entry 9); the bytes for posted and the waiting lanes, and that replies to a post and a clear carry the lanes
that wait, as R150 says of a read, are its choice (log entries 28 and 32). -/
def Obligations.TokenRequestsActOnTheTable : Prop :=
  ∀ (s : State) (token code : Byte),
    let host := fun (w : Work) c body => Host.Outcome.next { s with work := w.reply 0x10 c body }
    (32 ≤ token.toNat →
      exec (.tokenPost token code) s = host s.work .format [] ∧
        exec (.tokenClear token code) s = host s.work .format [] ∧
        exec (.tokenRead token code) s = host s.work .format []) ∧
    (∀ k : Fin 32, k.val = token.toNat →
      let fields := fun (t : Token) => tokenReadout t (s.work.waitingLanes k)
      let cleared := { s.work with tokens := s.work.tokens.set k.val none }
      exec (.tokenRead token code) s = host s.work .ok (fields s.work.tokens[k.val]) ∧
      exec (.tokenClear token code) s = host cleared .ok (fields s.work.tokens[k.val]) ∧
      (∀ p, s.work.tokens[k.val] = some p →
        exec (.tokenPost token code) s = host s.work .overposted (fields (some p))) ∧
      (s.work.tokens[k.val] = none → s.work.waitingLanes k = [] → s.work.rested →
        exec (.tokenPost token code) s =
          host { s.work with tokens := s.work.tokens.set k.val (some (.host, code)) } .ok
            (fields (some (.host, code))))) ∧
    (∀ n : LaneId, (s.work.lane n).tx.length < 32 →
      let l := s.work.lane n
      let answer := fun (w : Work) m =>
        Host.Outcome.next { s with work := w.setLane n { l with rx := .hunting, tx := l.tx ++ [m] } }
      (32 ≤ token.toNat → exec (.unitToken n token code) s = answer s.work (.refuse 0 0x01)) ∧
      (∀ k : Fin 32, k.val = token.toNat → s.work.tokens[k.val] ≠ none →
        exec (.unitToken n token code) s = answer s.work (.refuse 0 0x0A)) ∧
      (∀ k : Fin 32, k.val = token.toNat → s.work.tokens[k.val] = none → s.work.waitingLanes k = [] →
        s.work.rested →
        exec (.unitToken n token code) s =
          answer { s.work with tokens := s.work.tokens.set k.val (some (.unit n, code)) } (.accept 0)))

/-- A post that meets waiting steps goes to the waiting lane with the lowest number (R152): its step takes the post as
its token received, stops C3 and enters CLAIM at the end of the claim order list; the token stays unposted and the
other lanes wait on. -/
def Obligations.PostGoesToTheLowestWaitingLane : Prop :=
  ∀ (w : Work) (k : Fin 32) (p : Poster × Byte) (n : LaneId) (c : CurStep),
    w.tokens[k.val] = none → (w.lane n).cur = some c → c.phase = .tokenWait → c.step.waitToken = some k →
    (∀ m : LaneId, m < n → m ∉ w.waitingLanes k) →
    let t := w.postToken k p
    t.lane n =
      { w.lane n with
        c3 := (w.lane n).c3.stop, cur := some { c with phase := .claim, resume := none, token := some p } } ∧
    (∀ m : LaneId, m ≠ n → t.lane m = w.lane m) ∧
    t.nodes = { w.nodes with order := w.nodes.order.filter (· != n) ++ [n] } ∧
    t = { w with lanes := t.lanes, nodes := t.nodes, wake := true }

/-- TAKE_RESULTS (R172, R174): a count above 16 is FORMAT; otherwise the oldest records leave in order and the reply
carries their number, the length left and their bytes of 24 each. The freed slots go to the lanes that wait, in rotating
order after the last delivering lane. The 24 bytes are those of section 11.6, absent fields 0 (R166, R205). -/
def Obligations.TakeResultsReturnsTheOldest : Prop :=
  (∀ (s : State) (count : Byte),
    let taken := s.work.results.take count.toNat
    let left := s.work.results.drop count.toNat
    let body := BitVec.ofNat 8 taken.length :: BitVec.ofNat 8 left.length :: taken.flatMap ResultRecord.bytes
    (16 < count.toNat → exec (.takeResults count) s = .next { s with work := s.work.reply 0x0D .format [] }) ∧
    (count.toNat ≤ 16 → s.work.waitingSet = [] → s.work.rested →
      exec (.takeResults count) s = .next { s with work := ({ s.work with results := left }).reply 0x0D .ok body }) ∧
    (count.toNat ≤ 16 → taken ≠ [] → s.work.rested → (∀ n : LaneId, (s.work.lane n).frozen = false) →
      (∀ n ∈ s.work.waitingSet, ∃ c r, (s.work.lane n).cur = some c ∧ c.record = some r ∧
        c.step.flags.fused = false) →
      let last := s.work.lastDelivering
      let turn := [last + 1, last + 2, last + 3, last].filter fun n => n ∈ s.work.waitingSet
      let given := turn.take (128 - left.length)
      ∃ w : Work, exec (.takeResults count) s = .next { s with work := w.reply 0x0D .ok body } ∧
        w.results = left ++ given.filterMap (fun n => (s.work.lane n).cur.bind (·.record)) ∧
        w.lastDelivering = given.getLast?.getD last ∧
        (∀ n ∈ given, (w.lane n).cur = none) ∧ (∀ n, n ∉ given → w.lane n = s.work.lane n) ∧
        w.nodes = s.work.nodes ∧ w.chain = s.work.chain ∧ w.tokens = s.work.tokens)) ∧
  ∀ r : ResultRecord,
    let b := r.bytes
    b.length = 24 ∧ Bytes.u16At b 0 = r.tag ∧
    Bytes.at' b 2 =
      BitVec.ofNat 8 (r.lane.val + (if r.origin = .unit then 4 else 0) + (if r.follower.isSome then 8 else 0)) ∧
    Bytes.at' b 3 =
      (match r.verdict with
        | .pass => 0 | .fail => 1 | .timeout => 2 | .tokenTimeout => 3 | .unitFault => 4 | .rejected => 5
        | .aborted => 6) ∧
    Bytes.at' b 4 =
      (match r.error with
        | none => 0 | some .fuse => 1 | some .roles => 2 | some .limits => 3 | some .unmapped => 4
        | some .nodeRange => 5 | some .duplicate => 6) ∧
    Bytes.at' b 5 = BitVec.ofNat 8 r.attempts ∧
    (∀ i : Nat, (Bytes.at' b 6).getLsbD i = ([r.saturated, r.capped, r.overpost].getD i false)) ∧
    (∀ i : Nat, (Bytes.at' b 7).getLsbD i =
      ([r.raw.isSome, r.settle.isSome, r.token.isSome, (r.follower.bind (·.2)).isSome].getD i false)) ∧
    Bytes.u24At b 8 = BitVec.ofInt 24 r.value ∧ Bytes.u24At b 11 = BitVec.ofInt 24 (r.raw.getD 0) ∧
    Bytes.u16At b 14 = BitVec.ofNat 16 (r.settle.getD 0) ∧
    (r.token = none → Bytes.at' b 16 = 0 ∧ Bytes.at' b 17 = 0) ∧
    (∀ p code, r.token = some (p, code) → Bytes.at' b 17 = code ∧
      Bytes.at' b 16 =
        match p with | .host => 0 | .unit n => BitVec.ofNat 8 (1 + n.val) | .lane n => BitVec.ofNat 8 (5 + n.val)) ∧
    Bytes.u24At b 18 = BitVec.ofInt 24 ((r.follower.map (·.1)).getD 0) ∧
    Bytes.u24At b 21 = BitVec.ofInt 24 ((r.follower.bind (·.2)).getD 0)

/-- Correction and evaluation. The quotient is the integer nearest to P / 32,768 and in a halfway case the one farther
from zero; the sum with the offset stands within the range and is clamped with the saturated mark outside it (R158, R159,
R160). An OVERRANGE reading has the end of the range on its raw value's side, saturated (R161); a FAULT reading has
NO_READING and UNIT_FAULT, unchecked (R162); the limits are inclusive and an absent one passes every value (R163). -/
def Obligations.CorrectionRoundsAndClamps : Prop :=
  (∀ (gain : Nat) (offset raw : Int),
    let q := roundQuotient (raw * gain)
    let off := (raw * gain - 32768 * q).natAbs
    2 * off ≤ 32768 ∧ (2 * off = 32768 → (raw * gain).natAbs < (32768 * q).natAbs) ∧
    (-8388607 ≤ q + offset → q + offset ≤ 8388607 → correct gain offset raw = (q + offset, false)) ∧
    (8388607 < q + offset → correct gain offset raw = (8388607, true)) ∧
    (q + offset < -8388607 → correct gain offset raw = (-8388607, true))) ∧
  ∀ (cfg : LaneConfig) (low high : Option Int) (raw : Int),
    let within := fun v : Int => (∀ l, low = some l → l ≤ v) ∧ ∀ h, high = some h → v ≤ h
    let judged := fun (f : ReadingFlag) (v : Int) (saturated : Bool) =>
      (within v → evaluateReading cfg low high ⟨raw, f⟩ = (v, saturated, .pass)) ∧
      (¬ within v → evaluateReading cfg low high ⟨raw, f⟩ = (v, saturated, .fail))
    judged .ok (correct cfg.gain cfg.offset raw).1 (correct cfg.gain cfg.offset raw).2 ∧
    (0 ≤ raw → judged .overrange 8388607 true) ∧ (raw < 0 → judged .overrange (-8388607) true) ∧
    evaluateReading cfg low high ⟨raw, .fault⟩ = (-8388608, false, .unitFault)

/-- The channels' counting (R112, R113, R122). The aligned start is the first count tick at or after the start event. A
count-down channel started with v of 1 or more expires at its aligned start plus v count units and at no tick before
it. C0 in ADAPTIVE mode reaches count k at its aligned start plus k units, and its settle test is due from the aligned
start on. The ticks counted are those after the start event. -/
def Obligations.ChannelExpiresAfterItsCount : Prop :=
  ∀ (c : Clock) (coarse : Bool) (v k : Nat), v ≤ 65535 →
    let ticks := (List.range k).map fun i => c.time + BitVec.ofNat 32 (i + 1)
    let unit := if coarse then 64 else 1
    let lead := (alignedStart coarse c - c.time).toNat
    ((alignedStart coarse c).toNat % unit = 0 ∧ (c.sub ≠ 0 → 1 ≤ lead) ∧
      ∀ j, j < lead → (c.sub = 0 ∨ 1 ≤ j) → (c.time + BitVec.ofNat 32 j).toNat % unit ≠ 0) ∧
    (1 ≤ v → k ≤ lead + v * unit →
      ((ticks.foldl Channel.tick (Channel.startDown c coarse v)).expiring = true ↔ k = lead + v * unit)) ∧
    ∀ minimum : Nat, k ≤ lead + v * unit →
      let up := ticks.foldl Channel.tick (Channel.startUp c coarse v minimum)
      up.counting = true ∧ up.count = (k - lead) / unit ∧
        (up.due = true ↔ (if lead = 0 then unit else lead) ≤ k)

/-! ### Lanes: requests and messages -/

/-- GO from the host and from a unit (R86, R90): a mask of no lane or above lane 3 is FORMAT, the four refusals come in
their order with nothing changed, and otherwise each named lane that is STOPPED, PAUSED, HALTED or HELD with no step is
RUNNING, at one event. A RUNNING or PAUSING lane stays, and a FOLLOWING one, frozen by its leader's step, has PAUSED or
STOPPED remembered as RUNNING (R91). A lane with a kept step resumes it at its resume point (R87). -/
def Obligations.GoStartsLanes : Prop :=
  (∀ s : State, s.work.rested →
     (∀ n : LaneId, (s.work.lane n).run = .running ∨ (s.work.lane n).run = .pausing ∨ (s.work.lane n).run = .following ∨
       ((s.work.lane n).cur = none ∧ (s.work.lane n).frozen = false)) →
     let go := fun (l : Lane) =>
       if l.run = .stopped ∨ l.run = .paused ∨ l.run = .halted ∨ l.run = .held then { l with run := .running }
       else if l.run = .following ∧ (l.remembered = some .paused ∨ l.remembered = some .stopped) then
         { l with remembered := some .running }
       else l
     let refusal := fun (named : LaneId → Prop) (code : ReplyCode) =>
       (s.inputs.seated.level = false ∧ code = .unseated) ∨
       (s.inputs.seated.level = true ∧ s.work.chain.state ≠ .ready ∧ code = .chainFault) ∨
       (s.inputs.seated.level = true ∧ s.work.chain.state = .ready ∧
         (∃ n, named n ∧ (s.fix.lanes[n.val]).lineMode = .manual) ∧ code = .lineManual) ∨
       (s.inputs.seated.level = true ∧ s.work.chain.state = .ready ∧
         (∀ n, named n → (s.fix.lanes[n.val]).lineMode = .auto) ∧
         (∃ n, named n ∧ (s.fix.lanes[n.val]).enabled = false) ∧ code = .disabled)
     let accepted := fun (named : LaneId → Prop) =>
       s.inputs.seated.level = true ∧ s.work.chain.state = .ready ∧
         ∀ n, named n → (s.fix.lanes[n.val]).lineMode = .auto ∧ (s.fix.lanes[n.val]).enabled = true
     (∀ mask : Byte,
       let named := fun n : LaneId => mask.getLsbD n.val = true
       (mask.toNat = 0 ∨ 16 ≤ mask.toNat → exec (.go mask) s = .next { s with work := s.work.reply 0x03 .format [] }) ∧
       (1 ≤ mask.toNat → mask.toNat < 16 →
         (∀ code, refusal named code → exec (.go mask) s = .next { s with work := s.work.reply 0x03 code [] }) ∧
         (accepted named → ∃ w : Work, exec (.go mask) s = .next { s with work := w.reply 0x03 .ok [] } ∧
           w = { s.work with lanes := w.lanes } ∧
           ∀ n : LaneId, w.lane n = if mask.getLsbD n.val then go (s.work.lane n) else s.work.lane n))) ∧
     (∀ n : LaneId, (s.work.lane n).tx.length < 32 →
       let l := s.work.lane n
       (∀ code, refusal (· = n) code → exec (.unitGo n) s =
         .next { s with work := s.work.setLane n { l with rx := .hunting, tx := l.tx ++ [.refuse 0 code.byte] } }) ∧
       (accepted (· = n) → exec (.unitGo n) s =
         .next { s with work := s.work.setLane n (go { l with rx := .hunting, tx := l.tx ++ [.accept 0] }) }))) ∧
  ∀ (w : Work) (e : Env) (n : LaneId) (c : CurStep),
    let l := w.lane n
    let t := w.goLane e n
    l.run = .paused ∨ l.run = .held → l.cur = some c →
    (c.resume = some .claim →
      t.lane n = { l with run := .running, cur := some { c with phase := .claim, resume := none } } ∧
        t.nodes = { w.nodes with order := w.nodes.order.filter (· != n) ++ [n] } ∧
        t = { w with lanes := t.lanes, nodes := t.nodes, wake := true } ∧ ∀ m, m ≠ n → t.lane m = w.lane m) ∧
    ∀ k, c.resume = some .tokenWait → c.step.waitToken = some k → c.token = none → w.tokens[k.val] = none →
      t = w.setLane n
        { l with
          run := .running, cur := some { c with phase := .tokenWait, resume := none }
          c3 := Channel.startDown e.clock c.step.flags.coarse c.step.watch }

/-- PAUSE from the host and from a unit (R88, R90, R91): a RUNNING lane with no step goes PAUSED and one past CLAIM goes
PAUSING, a step in TOKEN_WAIT is kept with its C3 stopped, a FOLLOWING lane's remembered RUNNING goes PAUSED, and any
other lane is unchanged. A step in CLAIM or FUSE_WAIT is kept with its resume point, off the claim order list, with no
waiter mark, and its follower is no longer frozen (R87, R136). -/
def Obligations.PauseStopsLanes : Prop :=
  (∀ s : State, s.work.rested → (∀ m a, (s.work.node m).waiter ≠ some a) → s.work.nodes.order = [] →
     entriesWf s.work.nodes.entries →
     (∀ (n : LaneId) (c : CurStep), (s.work.lane n).cur = some c →
       c.phase ≠ .fuseWait ∧ c.phase ≠ .claim ∧ c.phase ≠ .none ∧ c.phase ≠ .admission) →
     let pause := fun (l : Lane) =>
       match l.run, l.cur with
       | .running, none => { l with run := .paused }
       | .running, some c =>
         if c.phase = .tokenWait then
           { l with
             run := .paused, cur := some { c with phase := .none, resume := some .tokenWait }
             c0 := l.c0.stop, c1 := l.c1.stop, c2 := l.c2.stop, c3 := l.c3.stop }
         else { l with run := .pausing }
       | .following, _ => if l.remembered = some .running then { l with remembered := some .paused } else l
       | _, _ => l
     (∀ mask : Byte,
       (mask.toNat = 0 ∨ 16 ≤ mask.toNat →
         exec (.pause mask) s = .next { s with work := s.work.reply 0x04 .format [] }) ∧
       (1 ≤ mask.toNat → mask.toNat < 16 → ∃ w : Work,
         exec (.pause mask) s = .next { s with work := w.reply 0x04 .ok [] } ∧
         w = { s.work with lanes := w.lanes } ∧
         ∀ n : LaneId, w.lane n = if mask.getLsbD n.val then pause (s.work.lane n) else s.work.lane n)) ∧
     (∀ n : LaneId, exec (.unitPause n) s =
       .next { s with work := s.work.setLane n (pause { s.work.lane n with rx := .hunting }) })) ∧
  ∀ (w : Work) (n : LaneId) (c : CurStep) (p : ResumePoint),
    let l := w.lane n
    let t := w.pauseLane n
    l.run = .running → l.cur = some c →
    (c.phase = .claim ∧ p = .claim) ∨ (c.phase = .fuseWait ∧ p = .fuseWait) →
    t.lane n =
      { l with
        run := .paused, cur := some { c with phase := .none, resume := some p }
        c0 := l.c0.stop, c1 := l.c1.stop, c2 := l.c2.stop, c3 := l.c3.stop } ∧
    n ∉ t.nodes.order ∧ (∀ m, (t.node m).waiter ≠ some n) ∧
    ∀ f : LaneId, (n = 0 ∧ f = 1) ∨ (n = 2 ∧ f = 3) →
      t.lane f =
        if c.phase = .fuseWait ∧ c.step.flags.fused = true then { w.lane f with frozen := false } else w.lane f

/-- CANCEL_LANE from the host and from a unit (R80, R81, R73): a lane above 3 is FORMAT; with no step in progress or one
in DELIVER the records behind it go, the reply counts those removed, LOW_WATER is raised when the mark is crossed, and the
run state stays. A step at or before CLAIM goes without a record, from CLAIM with a pass started, and one past CLAIM is
aborted and delivered. -/
def Obligations.CancelLaneEmptiesTheQueue : Prop :=
  (∀ s : State, s.work.rested →
     (∀ lane : Byte, 4 ≤ lane.toNat →
       exec (.cancelLane lane) s = .next { s with work := s.work.reply 0x02 .format [] }) ∧
     ∀ n : LaneId, (∀ c, (s.work.lane n).cur = some c → c.phase = .deliver) →
       let l := s.work.lane n
       let kept := if l.cur.isSome then 1 else 0
       let mark := (s.fix.lanes[n.val]).lowWater
       let note := fun (w : Work) => if 1 ≤ mark ∧ mark < l.length ∧ kept ≤ mark then w.raise (.lowWater n) else w
       (∀ lane : Byte, n.val = lane.toNat →
         exec (.cancelLane lane) s =
           .next
             { s with
               work :=
                 (note (s.work.setLane n { l with queue := [] })).reply 0x02 .ok
                   [BitVec.ofNat 8 l.queue.length] }) ∧
       exec (.unitCancelLane n) s =
         .next { s with work := note (s.work.setLane n { l with queue := [], rx := .hunting }) }) ∧
  ∀ (w : Work) (e : Env) (n : LaneId) (c : CurStep),
    let l := w.lane n
    let t := (w.cancelLane e n).1
    l.cur = some c → c.step.flags.fused = false → l.frozen = false →
    (c.phase = .none ∨ c.phase = .tokenWait ∨ c.phase = .claim →
      (w.cancelLane e n).2 = l.length ∧ t.results = w.results ∧
        t.lane n =
          { l with
            cur := none, queue := []
            c0 := l.c0.stop, c1 := l.c1.stop, c2 := l.c2.stop, c3 := l.c3.stop } ∧
        n ∉ t.nodes.order ∧ (∀ m, (t.node m).waiter ≠ some n) ∧
        (c.phase = .claim ∨ c.resume = some .claim → t.wake = true) ∧ ∀ m, m ≠ n → t.lane m = w.lane m) ∧
    (c.phase = .switch ∨ c.phase = .settle ∨ c.phase = .readyWait ∨ c.phase = .source ∨ c.phase = .gate ∨
        c.phase = .resultWait →
      c.step.origin = .host → l.pendingHold = false → l.tx.length < 32 → w.results.length < 128 →
      (w.cancelLane e n).2 = l.queue.length ∧
        t.results = w.results ++ [c.toRecord n .aborted] ∧
        (t.lane n).cur = none ∧ (t.lane n).queue = [] ∧ (t.lane n).tx = l.tx ++ [.cancel c.step.tag c.attempt] ∧
        (t.lane n).run = (if l.run = .pausing then .paused else l.run) ∧ ∀ m, m ≠ n → t.lane m = w.lane m)

/-- READY (R96, R140): the first for the current tag and attempt is remembered in SWITCH and SETTLE, and in READY_WAIT
stops C3 and begins SOURCE with SRC high and C1 started (R98); any other is discarded with STALE and changes no part of
the step. A FOLLOWING lane's READY serves its leader's step. -/
def Obligations.ReadyIsRememberedOrBeginsSource : Prop :=
  ∀ (s : State) (tag : BitVec 16) (attempt : Byte), s.work.rested →
    (∀ (n : LaneId), (s.work.lane n).run ≠ .following →
      let l := s.work.lane n
      ((∀ c, l.cur = some c → c.step.tag = tag → attempt.toNat = c.attempt → c.leader.ready = false →
          c.phase ≠ .switch ∧ c.phase ≠ .settle ∧ c.phase ≠ .readyWait) →
        exec (.ready n tag attempt) s =
          .next { s with work := (s.work.setLane n { l with rx := .hunting }).raise (.stale n) }) ∧
      ∀ c, l.cur = some c → c.step.tag = tag → attempt.toNat = c.attempt → c.leader.ready = false →
        let marked := { c with leader := { c.leader with ready := true } }
        (c.phase = .switch ∨ c.phase = .settle →
          exec (.ready n tag attempt) s =
            .next { s with work := s.work.setLane n { l with rx := .hunting, cur := some marked } }) ∧
        (c.phase = .readyWait → c.step.flags.fused = false → c.step.sourceDelay ≠ 0 →
          (s.fix.lanes[n.val]).lineMode = .auto →
          exec (.ready n tag attempt) s =
            .next
              { s with
                work :=
                  s.work.setLane n
                    { l with
                      rx := .hunting, cur := some { marked with phase := .source }, src := true, gate := false
                      c1 := Channel.startDown s.clock c.step.flags.coarse c.step.sourceDelay
                      c3 := l.c3.stop } })) ∧
    (∀ (n f : LaneId) (c : CurStep), (n = 0 ∧ f = 1) ∨ (n = 2 ∧ f = 3) → (s.work.lane f).run = .following →
      (s.work.lane n).cur = some c → c.step.tag = tag → attempt.toNat = c.attempt → c.follower.ready = false →
      c.phase = .switch ∨ c.phase = .settle →
      exec (.ready f tag attempt) s =
        .next
          { s with
            work :=
              (s.work.setLane f { s.work.lane f with rx := .hunting }).setLane n
                { s.work.lane n with
                  cur := some { c with follower := { c.follower with ready := true } } } })

/-- RESULT (R100, R156): the first for the current tag and attempt in SOURCE or GATE is held; outside SOURCE, GATE and
RESULT_WAIT, for another tag or attempt, or with one held, it is discarded with STALE; a flag byte that is none of the
three codes discards the frame with LINK_ERROR. -/
def Obligations.ResultIsHeldOrStale : Prop :=
  ∀ (s : State) (n : LaneId) (tag : BitVec 16) (attempt : Byte) (raw : BitVec 24) (flag : Byte), s.work.rested →
    let l := s.work.lane n
    (3 ≤ flag.toNat → exec (.result n tag attempt raw flag) s =
      .next { s with work := (s.work.setLane n { l with rx := .hunting }).raise (.linkError n) }) ∧
    (l.run ≠ .following →
      (flag.toNat < 3 →
        (∀ c, l.cur = some c → c.step.tag = tag → attempt.toNat = c.attempt →
          c.phase ≠ .resultWait ∧ ((c.phase = .source ∨ c.phase = .gate) → c.leader.held ≠ none)) →
        exec (.result n tag attempt raw flag) s =
          .next { s with work := (s.work.setLane n { l with rx := .hunting }).raise (.stale n) }) ∧
      ∀ (c : CurStep) (f : ReadingFlag), readingFlagOf flag = some f → l.cur = some c → c.step.tag = tag →
        attempt.toNat = c.attempt → c.phase = .source ∨ c.phase = .gate → c.leader.held = none →
        exec (.result n tag attempt raw flag) s =
          .next
            { s with
              work :=
                s.work.setLane n
                  { l with
                    rx := .hunting
                    cur := some { c with leader := { c.leader with held := some ⟨raw.toInt, f⟩ } } } })

/-- The events of one unit link (R194, R195, R196): a bad frame, a stop bit fault and a gap over 20 µs inside a frame
return the receiver to HUNTING with LINK_ERROR; 7Eh starts a frame; the oldest message goes onto a free line for 0.8 µs
a byte and leaves the list at its end. Nothing else of the part changes. While nothing stands, a clock lengthens the gap,
and a byte that comes joins the frame and starts the gap anew; a complete frame stands as its message, and a byte with a
low stop bit or a 7Eh to a HUNTING receiver as its event. The line from the unit, and a gap counted from last bit to last
bit, are the model's (log entries 8 and 31). -/
def Obligations.LinkEventsMoveOneLink : Prop :=
  ∀ (s : State) (n : LaneId),
    let l := s.work.lane n
    let fault := fun k : Lane => Host.Outcome.next { s with work := (s.work.setLane n k).raise (.linkError n) }
    let set := fun (k : Lane) => Host.Outcome.next { s with work := s.work.setLane n k }
    (∀ type body, exec (.linkFrameDiscarded n type body) s = fault { l with rx := .hunting }) ∧
    exec (.linkStopBitError n) s = fault { l with rx := .hunting, arrived := none } ∧
    (∀ taken gap, l.rx = .inFrame taken gap → 1000 < gap →
      exec (.linkGapTimeout n) s = fault { l with rx := .hunting }) ∧
    ((∀ taken gap, l.rx = .inFrame taken gap → gap ≤ 1000) → exec (.linkGapTimeout n) s = .next s) ∧
    (l.rx = .hunting → exec (.linkStartByte n) s = set { l with rx := .inFrame [] 0, arrived := none }) ∧
    (∀ taken gap, l.rx = .inFrame taken gap →
      exec (.linkStartByte n) s = set { l with rx := .inFrame (taken ++ [0x7E]) 0, arrived := none }) ∧
    (∀ m rest, l.sending = none → l.tx = m :: rest →
      exec (.transmitMessage n) s = set { l with sending := some (40 * m.frame.length) }) ∧
    (l.sending = some 0 → exec (.transmitEnd n) s = set { l with tx := l.tx.tail, sending := none }) ∧
    (∀ k, l.sending = some (k + 1) → exec (.transmitEnd n) s = .next s) ∧
    (∀ type body gap, body.length < 256 → l.rx = .inFrame (type :: BitVec.ofNat 8 body.length :: body) gap →
      decodeFrame n type body ∈ standing s) ∧
    (∀ b, l.arrived = some b →
      (b.stop = false → .linkStopBitError n ∈ standing s) ∧
      (b.stop = true → b.value = 0x7E → l.rx = .hunting → .linkStartByte n ∈ standing s)) ∧
    (s.pending = [] → standing s = [] → ∃ t, step s = .next t ∧
      let k := t.work.lane n
      let line := t.inputs.lines[n.val]
      let waits := k.arrived = none ∧
        k.rx = match l.rx with | .hunting => .hunting | .inFrame taken gap => .inFrame taken (gap + 1)
      k.sending = l.sending.map (· - 1) ∧
      (s.inputs.lines[n.val] = [] → line = [] ∧ waits) ∧
      (∀ b rest, s.inputs.lines[n.val] = b :: rest → 1 < b.wait →
        line = { b with wait := b.wait - 1 } :: rest ∧ waits) ∧
      (∀ b rest, s.inputs.lines[n.val] = b :: rest → b.wait ≤ 1 → line = rest ∧
        (l.rx = .hunting → k.rx = .hunting ∧ k.arrived = some b) ∧
        ∀ taken gap, l.rx = .inFrame taken gap →
          (b.stop = true → gap + 1 ≤ 1000 → k.rx = .inFrame (taken ++ [b.value]) 0 ∧ k.arrived = none) ∧
          (b.stop = false ∨ 1000 < gap + 1 → k.rx = .inFrame taken (gap + 1) ∧ k.arrived = some b)))

/-- The filtered levels (R126, R177, R179): STABLE and ABORT_N take their new level with nothing else, and a rise of
SEATED raises the SAFETY cause SEATED alone and lets a CLOSE shift from the next tick (R49); the pin and the last
sample stand at the level too (the model's choice, log entry 4). -/
def Obligations.FilterEventsTakeTheLevel : Prop :=
  ∀ s : State,
    (∀ (n : LaneId) (b : Bool), exec (.stableChange n b) s =
      .next
        { s with
          inputs :=
            { s.inputs with
              stablePins := s.inputs.stablePins.set n.val b
              stable := s.inputs.stable.set n.val ⟨b, b, false⟩ } }) ∧
    exec .abortNRise s =
      .next { s with inputs := { s.inputs with abortNPin := true, abortN := ⟨true, true, false⟩ } } ∧
    (s.inputs.seated.level = true → exec .seatingChangeSeated s = .next s) ∧
    (s.inputs.seated.level = false →
      exec .seatingChangeSeated s =
        .next
          { s with
            inputs := { s.inputs with seatedPin := true, seated := ⟨true, true, false⟩ }
            work :=
              { s.work with
                chain := { s.work.chain with closeHoldOff := true }
                notices := s.work.notices.set 0 (s.work.notices[0] ||| 2) } })

/-- A request of a type outside the table is answered FORMAT with type echo FFh, one refused for its length FORMAT with
its own type, and a request whose transaction ends early changes nothing (R190, R191, R192; log entry 7). HSDO carries
00h until the reply is formed, from the next byte boundary on its type echo, code, body length and body, and 00h from
then on; the byte at which the reply starts is the host's clocking, left open (log entry 9). -/
def Obligations.RefusedRequestsChangeNothing : Prop :=
  ∀ (s : State) (type : Byte) (bytes : List Byte),
    (type.toNat = 0 ∨ 20 < type.toNat →
      exec (.unknownRequestType type bytes) s = .next { s with work := s.work.reply 0xFF .format [] }) ∧
    (1 ≤ type.toNat → type.toNat ≤ 20 →
      exec (.unknownRequestType type bytes) s = .next { s with work := s.work.reply type .format [] }) ∧
    exec (.hostRequestAbandoned bytes) s = .next s ∧
    ∀ (p : Port) (start : Nat),
      let byte := fun k => p.hsdo start k
      (p.reply = none → ∀ k, byte k = 0) ∧
      ∀ r : Reply, p.reply = some r →
        (∀ k, k < start → byte k = 0) ∧ byte start = r.echo ∧
          byte (start + 1) =
            (match r.code with
              | .ok => 0 | .format => 1 | .queueFull => 2 | .laneActive => 3 | .busy => 4 | .unseated => 5
              | .lineManual => 6 | .chainFault => 7 | .regionRange => 8 | .disabled => 9 | .overposted => 10
              | .none => 11) ∧
          Bytes.u16 (byte (start + 2)) (byte (start + 3)) = BitVec.ofNat 16 r.body.length ∧
          (∀ (i : Nat) (x : Byte), r.body[i]? = some x → byte (start + 4 + i) = x) ∧
          ∀ k, start + 4 + r.body.length ≤ k → byte k = 0

/-! ### Lanes: the step's way -/

/-- ADMISSION (R74, R78, R79, R22, R94, R151): a failed check delivers the REJECTED record; a step whose wait token is
unposted waits in TOKEN_WAIT with C3 started; and a step whose nodes are OPEN and free, with slots for their frames, is
in SWITCH at this event, with SETUP sent, the nodes held and their CLOSE frames queued in list order. -/
def Obligations.AdmissionRejectsWaitsOrSwitches : Prop :=
  ∀ (s : State) (n : LaneId) (r : StepRecord) (rest : List StepRecord),
    let l := s.work.lane n
    l.run = .running → l.cur = none → l.frozen = false → l.queue = r :: rest → r.flags.fused = false →
    (∀ err, admissionCheck s.fix n r = .error err → r.origin = .host → l.pendingHold = false → s.work.rested →
      s.work.results.length < 128 → ∃ w : Work, exec (.admission n) s = .next { s with work := w } ∧
        w.results = s.work.results ++ [⟨r.tag, n, .host, .rejected, some err, 0, -8388608, none, none, false, false,
          false, none, none⟩] ∧
        w.lastDelivering = n ∧ w.lane n = { l with queue := rest } ∧ (∀ m, m ≠ n → w.lane m = s.work.lane m) ∧
        w.nodes = s.work.nodes ∧ w.chain = s.work.chain ∧ w.tokens = s.work.tokens) ∧
    (∀ nodes k, admissionCheck s.fix n r = .ok nodes → r.waitToken = some k → s.work.tokens[k.val] = none →
      s.work.rested →
      exec (.admission n) s =
        .next
          { s with
            work :=
              s.work.setLane n
                { l with
                  queue := rest, cur := some { CurStep.admitted r nodes with phase := .tokenWait }
                  c3 := Channel.startDown s.clock r.flags.coarse r.watch } }) ∧
    (∀ nodes, admissionCheck s.fix n r = .ok nodes → r.waitToken = none → s.work.calm →
      entriesWf s.work.nodes.entries → (∀ m, (s.work.node m).waiter ≠ some n) →
      (∀ p ∈ nodes, (s.work.node p.1).phase = .opened ∧ (s.work.node p.1).holder = .none ∧
        (s.work.node p.1).target = none ∧ (s.work.node p.1).waiter = none) →
      nodes.length ≤ s.work.chain.freeSlots → l.tx.length < 32 →
      ∃ w : Work, exec (.admission n) s = .next { s with work := w } ∧
        w.lane n =
          { l with
            queue := rest, cur := some { CurStep.admitted r nodes with phase := .switch }
            tx := l.tx ++ [.setup r.tag 0 r.function r.range r.stimulus] } ∧
        (∀ m, m ≠ n → w.lane m = s.work.lane m) ∧
        w.chain = { s.work.chain with queue := s.work.chain.queue ++ nodes.map fun p => .close p.1 p.2 } ∧
        (∀ p ∈ nodes, w.node p.1 = { s.work.node p.1 with holder := .lane n, target := some p.2 }) ∧
        (∀ m, m ∉ nodes.map (·.1) → w.node m = s.work.node m) ∧
        w.nodes.order = [] ∧ w.nodes.lastWinner = n ∧ w.nodes.linger = s.work.nodes.linger ∧
        w.tokens = s.work.tokens ∧ w.results = s.work.results)

/-- The end of settle (R95, R98, R121, R122): in FIXED mode at C0's expiry with the attempt's settle value captured, in
ADAPTIVE mode by the settle test at a count tick, which else lets C0 count on; the step then begins SOURCE when READY
has come and otherwise enters READY_WAIT with C3 started. That C0 stands at count 0 after a FIXED expiry is the model's
reading (DEDUCED, log entry 23). -/
def Obligations.SettleEndsIntoSourceOrReadyWait : Prop :=
  ∀ (s : State) (n : LaneId) (c : CurStep), s.work.rested → (s.work.lane n).cur = some c → c.phase = .settle →
    c.step.flags.fused = false → c.step.sourceDelay ≠ 0 → (s.fix.lanes[n.val]).lineMode = .auto →
    let l := s.work.lane n
    let ended := fun (ch : Channel) (captured : Nat) (capped : Bool) =>
      let c := { c with captured := some captured, capped := capped }
      Host.Outcome.next
        { s with
          work :=
            s.work.setLane n
              (if c.leader.ready then
                { l with
                  c0 := ch, cur := some { c with phase := .source }, src := true, gate := false
                  c1 := Channel.startDown s.clock c.step.flags.coarse c.step.sourceDelay }
              else
                { l with
                  c0 := ch, cur := some { c with phase := .readyWait }
                  c3 := Channel.startDown s.clock c.step.flags.coarse c.step.watch }) }
    (l.c0.counting = true → l.c0.due = true → l.c0.adaptive = false →
      exec (.fixedSettleExpiry n) s =
        ended { l.c0 with counting := false, count := 0, start := none, due := false } c.settle false) ∧
    (l.c0.counting = true → l.c0.due = true → l.c0.adaptive = true →
      let stable := (s.inputs.stable[n.val]).level
      let stopped := { l.c0 with counting := false, start := none, due := false }
      (l.c0.minimum ≤ l.c0.count → stable = true →
        exec (.adaptiveSettleEnd n) s = ended stopped l.c0.count false) ∧
      (¬ (l.c0.minimum ≤ l.c0.count ∧ stable = true) → l.c0.count = l.c0.cap →
        exec (.adaptiveSettleEnd n) s = ended stopped l.c0.count true) ∧
      (¬ (l.c0.minimum ≤ l.c0.count ∧ stable = true) → l.c0.count ≠ l.c0.cap →
        exec (.adaptiveSettleEnd n) s =
          .next { s with work := s.work.setLane n { l with c0 := { l.c0 with due := false } } }))

/-- C1's expiry begins GATE with GATE high, C2 started and the post token posted, a post on a posted token leaving
OVERPOST (R98, R99, R148). A QUIET step takes a quiet hold, waits in SOURCE on a busy chain, and begins GATE at the later
report of quiet (R51). On a FUSED step SOURCE begins at the READY that completes the pair, C1 and C2 of the follower start
and expire with the leader's, and in AUTO mode both lanes' lines take the same edges (R130, R141). C2's expiry lets GATE fall and releases the hold: with no RESULT held the step enters RESULT_WAIT
with C3 started, and a held one is taken and evaluated at once (R99, R100, R119). With a gate width of 0 all of it falls
in one event and GATE stays low (R129). -/
def Obligations.SourceAndGateFollowTheirChannels : Prop :=
  (∀ (s : State) (n : LaneId) (c : CurStep), s.work.rested → (s.work.lane n).cur = some c →
    c.step.flags.fused = false → (s.fix.lanes[n.val]).lineMode = .auto →
    let l := s.work.lane n
    let expired := fun (ch : Channel) => { ch with counting := false, count := 0, start := none, due := false }
    let started := fun v : Nat => Channel.startDown s.clock c.step.flags.coarse v
    let silent := s.work.chain.inflight = [] ∧ s.work.chain.shift = none
    let taken := { s.work.chain with holds := s.work.chain.holds ++ [n] }
    let released :=
      if n ∈ s.work.chain.holds then
        { s.work.chain with holds := s.work.chain.holds.filter (· != n), holdOff := true }
      else s.work.chain
    let sideWait := fun (x : SideState) => { x with reading := x.held, held := none }
    (c.phase = .source → l.c1.expiring = true →
      (c.step.flags.quiet = true → n ∉ s.work.chain.holds → ¬ silent →
        exec (.sourceDelayExpiry n) s =
          .next { s with work := ({ s.work with chain := taken }).setLane n { l with c1 := expired l.c1 } }) ∧
      ∀ (ts : Vector Token 32) (lost : Bool),
        (c.step.postToken = none ∧ ts = s.work.tokens ∧ lost = c.overpost) ∨
          (∃ k code, c.step.postToken = some (k, code) ∧
            ((s.work.tokens[k.val] ≠ none ∧ ts = s.work.tokens ∧ lost = true) ∨
              (s.work.tokens[k.val] = none ∧ s.work.waitingLanes k = [] ∧ lost = c.overpost ∧
                ts = s.work.tokens.set k.val (some (.lane n, code))))) →
        let gated :=
          { l with
            cur := some { c with phase := .gate, overpost := lost }, src := true, gate := true
            c1 := expired l.c1, c2 := started c.step.gateWidth }
        let passed :=
          { l with
            cur := some
              { c with
                phase := .resultWait, overpost := lost, leader := sideWait c.leader, follower := sideWait c.follower }
            src := true, gate := false, c1 := expired l.c1, c2 := started 0, c3 := started c.step.watch }
        let goes := fun (chain : Chain) (k : Lane) =>
          exec (.sourceDelayExpiry n) s =
            .next { s with work := ({ s.work with tokens := ts, chain := chain }).setLane n k }
        (c.step.gateWidth ≠ 0 →
          (c.step.flags.quiet = false → goes s.work.chain gated) ∧
          (c.step.flags.quiet = true → n ∉ s.work.chain.holds → silent → goes taken gated)) ∧
        (c.step.gateWidth = 0 → c.leader.held = none →
          (c.step.flags.quiet = false → n ∉ s.work.chain.holds → goes s.work.chain passed) ∧
          (c.step.flags.quiet = true → n ∉ s.work.chain.holds → silent →
            goes { s.work.chain with holdOff := true } passed))) ∧
    (c.phase = .gate → l.c2.expiring = true →
      (c.leader.held = none →
        exec (.gateExpiry n) s =
          .next
            { s with
              work :=
                ({ s.work with chain := released }).setLane n
                  { l with
                    cur := some
                      { c with
                        phase := .resultWait, leader := sideWait c.leader, follower := sideWait c.follower }
                    src := true, gate := false, c2 := expired l.c2, c3 := started c.step.watch } }) ∧
      ∀ r : Reading, c.leader.held = some r →
        let x := evaluateReading (s.fix.lanes[n.val]) c.step.low c.step.high r
        (x.2.2 ≠ .fail ∨ c.attempt = c.step.repeats → c.step.origin = .host → l.frozen = false →
          s.work.nodes.order = [] → s.work.results.length < 128 → ∃ w : Work,
          exec (.gateExpiry n) s = .next { s with work := w } ∧
          w.results = s.work.results ++
            [{ tag := c.step.tag, lane := n, origin := .host, error := none, attempts := c.attemptsUsed + 1
               verdict := match x.2.2 with | .pass => .pass | .fail => .fail | .unitFault => .unitFault
               value := x.1, raw := some r.raw, settle := c.captured, saturated := x.2.1, capped := c.capped
               overpost := c.overpost, token := c.token, follower := none }] ∧
          w.lane n =
            { l with
              cur := none, src := false, gate := false, c2 := expired l.c2, pendingHold := false
              run := (w.lane n).run } ∧
          n ∉ w.chain.holds ∧
          (∀ m, (w.node m).holder =
            if m ∈ c.nodes.map (·.1) ∧ (s.work.node m).holder = .lane n then .none else (s.work.node m).holder) ∧
          (∀ m, m ≠ n → w.lane m = s.work.lane m) ∧ w.tokens = s.work.tokens) ∧
        (x.2.2 = .fail → c.attempt ≠ c.step.repeats → c.step.flags.adaptive = false → c.step.settle ≠ 0 →
          l.tx.length < 32 →
          let settle := min 65535 (c.step.settle * 2 ^ (c.attempt + 1))
          exec (.gateExpiry n) s =
            .next
              { s with
                work :=
                  ({ s.work with chain := released }).setLane n
                    { l with
                      src := false, gate := false, c0 := started settle, c2 := expired l.c2
                      tx :=
                        l.tx ++ [UnitMessage.setup c.step.tag (c.attempt + 1) c.step.function c.step.range c.step.stimulus]
                      cur := some
                        { c with
                          phase := .settle, attempt := c.attempt + 1, settle := settle
                          attemptsUsed := c.attemptsUsed + 1, saturated := x.2.1
                          leader := ⟨false, none, none, x.1, some r.raw⟩
                          follower :=
                            { c.follower with ready := false, held := none, reading := none } } } }))) ∧
  (∀ (s : State) (n f : LaneId) (c : CurStep), (n = 0 ∧ f = 1) ∨ (n = 2 ∧ f = 3) → s.work.rested →
    (s.work.lane n).cur = some c → c.step.flags.fused = true →
    let l := s.work.lane n
    let m := s.work.lane f
    let expired := fun (ch : Channel) => { ch with counting := false, count := 0, start := none, due := false }
    let started := fun v : Nat => Channel.startDown s.clock c.step.flags.coarse v
    let lines := fun (a : LaneId) (src gate : Bool) (k : Lane) =>
      if (s.fix.lanes[a.val]).lineMode = .auto then { k with src := src, gate := gate } else k
    let silent := s.work.chain.inflight = [] ∧ s.work.chain.shift = none
    let taken := { s.work.chain with holds := s.work.chain.holds ++ [n] }
    let released :=
      if n ∈ s.work.chain.holds then
        { s.work.chain with holds := s.work.chain.holds.filter (· != n), holdOff := true }
      else s.work.chain
    let sideWait := fun (x : SideState) => { x with reading := x.held, held := none }
    let pair := fun (i : Instr) (ts : Vector Token 32) (chain : Chain) (k k' : Lane) =>
      exec i s = .next { s with work := (({ s.work with tokens := ts, chain := chain }).setLane n k).setLane f k' }
    (∀ attempt : Byte, c.phase = .readyWait → attempt.toNat = c.attempt → c.step.sourceDelay ≠ 0 →
      let begun :=
        { c with
          phase := .source, leader := { c.leader with ready := true }, follower := { c.follower with ready := true } }
      let led := { l with cur := some begun, c1 := started c.step.sourceDelay, c3 := l.c3.stop }
      let follows := { m with c1 := started c.step.sourceDelay }
      (c.leader.ready = false → c.follower.ready = true →
        pair (.ready n c.step.tag attempt) s.work.tokens s.work.chain (lines n true false { led with rx := .hunting })
          (lines f true false follows)) ∧
      (c.leader.ready = true → c.follower.ready = false → m.run = .following →
        pair (.ready f c.step.tag attempt) s.work.tokens s.work.chain (lines n true false led)
          (lines f true false { follows with rx := .hunting }))) ∧
    (c.phase = .source → l.c1.expiring = true →
      (c.step.flags.quiet = true → n ∉ s.work.chain.holds → ¬ silent →
        pair (.sourceDelayExpiry n) s.work.tokens taken { l with c1 := expired l.c1 } { m with c1 := expired m.c1 }) ∧
      ∀ (ts : Vector Token 32) (lost : Bool),
        (c.step.postToken = none ∧ ts = s.work.tokens ∧ lost = c.overpost) ∨
          (∃ k code, c.step.postToken = some (k, code) ∧
            ((s.work.tokens[k.val] ≠ none ∧ ts = s.work.tokens ∧ lost = true) ∨
              (s.work.tokens[k.val] = none ∧ s.work.waitingLanes k = [] ∧ lost = c.overpost ∧
                ts = s.work.tokens.set k.val (some (.lane n, code))))) →
        (c.step.gateWidth ≠ 0 →
          let gated := fun chain =>
            pair (.sourceDelayExpiry n) ts chain
              (lines n true true
                { l with
                  cur := some { c with phase := .gate, overpost := lost }
                  c1 := expired l.c1, c2 := started c.step.gateWidth })
              (lines f true true { m with c1 := expired m.c1, c2 := started c.step.gateWidth })
          (c.step.flags.quiet = false → gated s.work.chain) ∧
          (c.step.flags.quiet = true → n ∉ s.work.chain.holds → silent → gated taken)) ∧
        (c.step.gateWidth = 0 → c.leader.held = none ∨ c.follower.held = none → c.step.flags.quiet = false →
          n ∉ s.work.chain.holds →
          pair (.sourceDelayExpiry n) ts s.work.chain
            (lines n true false
              { l with
                cur := some
                  { c with
                    phase := .resultWait, overpost := lost, leader := sideWait c.leader
                    follower := sideWait c.follower }
                c1 := expired l.c1, c2 := started 0, c3 := started c.step.watch })
            (lines f true false { m with c1 := expired m.c1, c2 := started 0 }))) ∧
    (c.phase = .gate → l.c2.expiring = true → c.leader.held = none ∨ c.follower.held = none →
      pair (.gateExpiry n) s.work.tokens released
        (lines n true false
          { l with
            cur := some
              { c with phase := .resultWait, leader := sideWait c.leader, follower := sideWait c.follower }
            c2 := expired l.c2, c3 := started c.step.watch })
        (lines f true false { m with c2 := expired m.c2 }))) ∧
  ∀ s : State, s.work.rested →
    (∀ m ∈ s.work.chain.holds, ∃ c, (s.work.lane m).cur = some c ∧ c.phase = .source ∧
      (c.step.flags.fused = true → (m = 0 ∨ m = 2) ∧ m + 1 ∉ s.work.chain.holds ∧
        (s.fix.lanes[(m + 1).val]).lineMode = .auto) ∧
      c.step.postToken = none ∧ c.step.gateWidth ≠ 0 ∧ (s.fix.lanes[m.val]).lineMode = .auto) →
    let leads := fun m : LaneId =>
      match (s.work.lane (m - 1)).cur with
      | some c =>
        if (m = 1 ∨ m = 3) ∧ m - 1 ∈ s.work.chain.holds ∧ c.step.flags.fused = true then some c.step else none
      | none => none
    let gated := fun (w : Work) => ∀ m : LaneId,
      (m ∉ s.work.chain.holds → leads m = none → w.lane m = s.work.lane m) ∧
      (m ∉ s.work.chain.holds → ∀ step, leads m = some step →
        w.lane m =
          { s.work.lane m with
            src := true, gate := true, c2 := Channel.startDown s.clock step.flags.coarse step.gateWidth }) ∧
      (m ∈ s.work.chain.holds → ∀ c, (s.work.lane m).cur = some c →
        w.lane m =
          { s.work.lane m with
            cur := some { c with phase := .gate }, src := true, gate := true
            c2 := Channel.startDown s.clock c.step.flags.coarse c.step.gateWidth })
    (∀ ends : Time, s.work.chain.shift = some ⟨.abandoned, ends⟩ → reached ends s.clock.time = true →
      (s.work.chain.inflight = [] → ∃ w : Work, exec .shiftAbandonedEnd s = .next { s with work := w } ∧
        w = { s.work with lanes := w.lanes, chain := { s.work.chain with shift := none } } ∧ gated w) ∧
      (s.work.chain.inflight ≠ [] → exec .shiftAbandonedEnd s =
        .next { s with work := { s.work with chain := { s.work.chain with shift := none } } })) ∧
    ∀ (n : Nat) (t : Time), s.work.calm → s.work.chain.inflight = [(.close n, t)] →
      reached t s.clock.time = true → s.work.chain.shift = none → (s.work.node n).phase = .closing →
      (∀ a, (s.work.node n).holder ≠ .lane a) → (s.work.node n).due = false →
      ∃ w : Work, exec .closeComplete s = .next { s with work := w } ∧
        w = { s.work with lanes := w.lanes, nodes := { s.work.nodes with entries := w.nodes.entries }
                          chain := { s.work.chain with inflight := [] } } ∧
        w.node n = { s.work.node n with phase := .closed } ∧ (∀ m, m ≠ n → w.node m = s.work.node m) ∧ gated w

/-- A reading taken in RESULT_WAIT (R101, R103, R105, R106, R158 to R167): it is corrected and checked; PASS, UNIT_FAULT
and a FAIL at the last attempt release the nodes and deliver the record with the attempt's value, DONE going to the unit
for origin UNIT, and an earlier FAIL starts the next attempt with its settle doubled and SETUP sent. The delivery raises
FAIL and HALTED by the verdict (R107), LOW_WATER at the mark (R73), AVAILABLE into an empty queue and FULL at 128 records
(R175), and makes a lane with a pending hold HELD (R185). -/
def Obligations.ReadingBecomesTheDeliveredRecord : Prop :=
  ∀ (s : State) (n : LaneId) (c : CurStep) (attempt flag : Byte) (raw : BitVec 24) (f : ReadingFlag),
    let l := s.work.lane n
    let cfg := s.fix.lanes[n.val]
    let x := evaluateReading cfg c.step.low c.step.high ⟨raw.toInt, f⟩
    let halts := x.2.2 = .unitFault ∨ (x.2.2 = .fail ∧ cfg.failAction = .halt)
    let verdict : Verdict := match x.2.2 with | .pass => .pass | .fail => .fail | .unitFault => .unitFault
    readingFlagOf flag = some f → attempt.toNat = c.attempt → l.run ≠ .following → l.cur = some c →
    c.phase = .resultWait → c.step.flags.fused = false → c.leader.reading = none →
    (x.2.2 ≠ .fail ∨ c.attempt = c.step.repeats → (c.step.origin = .unit → l.tx.length < 32) →
      l.frozen = false → s.work.nodes.order = [] → s.work.results.length < 128 → ∃ w : Work,
      exec (.result n c.step.tag attempt raw flag) s = .next { s with work := w } ∧
      w.results = s.work.results ++
        [{ tag := c.step.tag, lane := n, origin := c.step.origin, error := none, attempts := c.attemptsUsed + 1
           verdict := verdict, value := x.1, raw := some raw.toInt, settle := c.captured, saturated := x.2.1
           capped := c.capped, overpost := c.overpost, token := c.token, follower := none }] ∧
      (w.lane n).cur = none ∧ (w.lane n).queue = l.queue ∧ (w.lane n).pendingHold = false ∧
      (w.lane n).run =
        (if l.pendingHold then .held else if halts then .halted
        else if l.run = .pausing then .paused else l.run) ∧
      (w.lane n).tx = l.tx ++ (if c.step.origin = .unit then [.done c.step.tag verdict] else []) ∧
      (∀ k : Fin 6, w.notices[k.val] = s.work.notices[k.val] |||
        (if k.val = 5 then
          (if s.work.results = [] then 1 else 0) ||| (if s.work.results.length = 127 then 2 else 0)
        else if k.val = n.val + 1 then
          (if x.2.2 = .fail then 1 else 0) ||| (if halts then 2 else 0) |||
            (if 1 ≤ cfg.lowWater ∧ l.queue.length = cfg.lowWater then 4 else 0)
        else 0)) ∧
      (∀ m, (w.node m).holder =
        if m ∈ c.nodes.map (·.1) ∧ (s.work.node m).holder = .lane n then .none else (s.work.node m).holder) ∧
      (∀ m, m ≠ n → w.lane m = s.work.lane m) ∧ w.tokens = s.work.tokens) ∧
    (x.2.2 = .fail → c.attempt ≠ c.step.repeats → s.work.rested → c.step.flags.adaptive = false →
      c.step.settle ≠ 0 → l.tx.length < 32 → (s.fix.lanes[n.val]).lineMode = .auto →
      let settle := min 65535 (c.step.settle * 2 ^ (c.attempt + 1))
      exec (.result n c.step.tag attempt raw flag) s =
        .next
          { s with
            work :=
              s.work.setLane n
                { l with
                  rx := .hunting, src := false, gate := false
                  c0 := Channel.startDown s.clock c.step.flags.coarse settle, c3 := l.c3.stop
                  tx := l.tx ++ [UnitMessage.setup c.step.tag (c.attempt + 1) c.step.function c.step.range c.step.stimulus]
                  cur := some
                    { c with
                      phase := .settle, attempt := c.attempt + 1, settle := settle
                      attemptsUsed := c.attemptsUsed + 1, saturated := x.2.1
                      leader := ⟨false, none, none, x.1, some raw.toInt⟩
                      follower := { c.follower with ready := false, held := none, reading := none } } } })

/-- C3's expiry (R93, R102, R153): in TOKEN_WAIT the step is delivered with TOKEN_TIMEOUT and its record so far; in
READY_WAIT and RESULT_WAIT CANCEL goes to the unit, the channels stop, SRC falls, the nodes are released and the
record carries TIMEOUT with the value of the timeout action. Its CLOSED nodes linger in list order behind every entry that
expires no later, all until the time base plus the lane's linger time; with RELEASE_NOW or a linger time of 0 each gets its
OPEN frame, in ascending node number (R29, R30, R32). -/
def Obligations.WatchExpiryEndsTheStep : Prop :=
  ∀ (s : State) (n : LaneId) (c : CurStep),
    let l := s.work.lane n
    let action := (s.fix.lanes[n.val]).timeoutAction
    l.cur = some c → l.c3.expiring = true → c.step.flags.fused = false → c.step.origin = .host →
    l.frozen = false → l.pendingHold = false → s.work.results.length < 128 →
    (c.phase = .tokenWait → s.work.rested → ∃ w : Work, exec (.tokenTimeout n) s = .next { s with work := w } ∧
      w.results = s.work.results ++ [c.toRecord n .tokenTimeout] ∧ w.nodes = s.work.nodes ∧
      w.chain = s.work.chain ∧ w.tokens = s.work.tokens ∧
      w.lane n =
        { l with
          cur := none, run := if l.run = .pausing then .paused else l.run
          c3 := { l.c3 with counting := false, count := 0, start := none, due := false } } ∧
      ∀ m, m ≠ n → w.lane m = s.work.lane m) ∧
    (c.phase = .readyWait ∨ c.phase = .resultWait → s.work.nodes.order = [] → l.tx.length < 32 →
      (s.fix.lanes[n.val]).lineMode = .auto → ∃ w : Work, exec (.timeout n) s = .next { s with work := w } ∧
      w.results = s.work.results ++
        [{ tag := c.step.tag, lane := n, origin := .host, verdict := .timeout, error := none
           attempts := c.attemptsUsed + 1, value := if action = .substitute then 8388607 else -8388608
           raw := c.leader.raw, settle := c.captured, saturated := action = .substitute, capped := c.capped
           overpost := c.overpost, token := c.token, follower := none }] ∧
      w.lane n =
        { l with
          cur := none, src := false, gate := false, tx := l.tx ++ [.cancel c.step.tag c.attempt]
          run := if action = .halt then .halted else if l.run = .pausing then .paused else l.run
          c0 := l.c0.stop, c1 := l.c1.stop, c2 := l.c2.stop
          c3 := { l.c3 with counting := false, count := 0, start := none, due := false } } ∧
      (∀ m, (w.node m).holder =
        if m ∈ c.nodes.map (·.1) ∧ (s.work.node m).holder = .lane n then .none else (s.work.node m).holder) ∧
      (∀ m, m ≠ n → w.lane m = s.work.lane m) ∧
      (s.work.calm → entriesWf s.work.nodes.entries → (c.nodes.map (·.1)).Nodup →
        (∀ p ∈ c.nodes, (s.work.node p.1).phase = .closed ∧ (s.work.node p.1).holder = .lane n ∧
          (s.work.node p.1).target = none ∧ (s.work.node p.1).due = false) →
        let linger := (s.fix.lanes[n.val]).linger
        let expiry := s.clock.time + BitVec.ofNat 32 linger
        let freed := ∀ m, w.node m =
          if m ∈ c.nodes.map (·.1) then { s.work.node m with holder := .none } else s.work.node m
        (c.step.flags.releaseNow = false → linger ≠ 0 → s.work.nodes.linger.length + c.nodes.length ≤ 128 →
          freed ∧ w.chain.queue = s.work.chain.queue ∧ ∃ pre post, s.work.nodes.linger = pre ++ post ∧
            w.nodes.linger = pre ++ c.nodes.map (fun p => (p.1, expiry)) ++ post ∧
            (∀ p ∈ pre, earlier expiry p.2 = false) ∧ ∀ p, post.head? = some p → earlier expiry p.2 = true) ∧
        (c.step.flags.releaseNow = true ∨ linger = 0 → s.work.chain.queue.length + c.nodes.length ≤ 64 →
          freed ∧ w.nodes.linger = s.work.nodes.linger ∧ ∃ ks : List Nat, ks.Perm (c.nodes.map (·.1)) ∧
            ks.Pairwise (· < ·) ∧ w.chain.queue = s.work.chain.queue ++ ks.map .opn)))

/-! ### Fused pairs -/

/-- The admission of a FUSED step (R78, R134): it freezes its follower lane, and while that lane has a step or may not
follow it stands in FUSE_WAIT; a follower with no step that is RUNNING, PAUSED or STOPPED is FOLLOWING at once, with its
run state remembered, and the leader's step goes on to its token wait. -/
def Obligations.FusedStepsFreezeTheirFollower : Prop :=
  ∀ (s : State) (n f : LaneId) (r : StepRecord) (rest : List StepRecord) (nodes : List (Nat × Fin 20)),
    (n = 0 ∧ f = 1) ∨ (n = 2 ∧ f = 3) → s.work.rested →
    let l := s.work.lane n
    let m := s.work.lane f
    l.run = .running → l.cur = none → l.frozen = false → l.queue = r :: rest → r.flags.fused = true →
    admissionCheck s.fix n r = .ok nodes →
    let free := m.cur = none ∧ (m.run = .running ∨ m.run = .paused ∨ m.run = .stopped)
    let c := CurStep.admitted r nodes
    (¬ free →
      exec (.admission n) s =
        .next
          { s with
            work :=
              (s.work.setLane n { l with queue := rest, cur := some { c with phase := .fuseWait } }).setLane f
                { m with frozen := true } }) ∧
    (free → ∀ k, r.waitToken = some k → s.work.tokens[k.val] = none →
      exec (.admission n) s =
        .next
          { s with
            work :=
              (s.work.setLane n
                { l with
                  queue := rest, cur := some { c with phase := .tokenWait }
                  c3 := Channel.startDown s.clock r.flags.coarse r.watch }).setLane f
                { m with frozen := true, run := .following, remembered := some m.run } })

/-- A RESULT on the link of a FOLLOWING lane in RESULT_WAIT (R138, R142, R143, R165): it is the follower's reading of the
leader's step; with the leader's reading there too each side is corrected and checked by its own lane's configuration
and its own limits, a UNIT_FAULT of either side ends the step, only two PASSes pass it, the record carries both values,
and at the delivery the follower takes its remembered run state and is no longer frozen. An earlier FAIL starts the next
attempt with SETUP on both links, and C3's expiry ends the step with TIMEOUT, CANCEL on both links and the follower's C1
and C2 stopped (R103, R142, R143). In each case SRC and GATE of both lanes are low in AUTO mode (R141). -/
def Obligations.FusedReadingsEndThePairTogether : Prop :=
  (∀ (s : State) (n f : LaneId) (c : CurStep) (attempt flag : Byte) (raw : BitVec 24) (g : ReadingFlag),
    (n = 0 ∧ f = 1) ∨ (n = 2 ∧ f = 3) →
    let l := s.work.lane n
    let m := s.work.lane f
    let taken : Reading := ⟨raw.toInt, g⟩
    let auto := fun a : LaneId => (s.fix.lanes[a.val]).lineMode = .auto
    readingFlagOf flag = some g → attempt.toNat = c.attempt → m.run = .following → l.cur = some c →
    c.phase = .resultWait → c.step.flags.fused = true → c.follower.reading = none →
    (c.leader.reading = none → s.work.rested →
      exec (.result f c.step.tag attempt raw flag) s =
        .next
          { s with
            work :=
              (s.work.setLane f { m with rx := .hunting }).setLane n
                { l with
                  cur := some { c with follower := { c.follower with reading := some taken } } } }) ∧
    (∀ (first : Reading) (q : RunState), c.leader.reading = some first → m.remembered = some q →
      c.step.origin = .host → l.frozen = false → l.pendingHold = false → s.work.nodes.order = [] →
      s.work.results.length < 128 →
      let x := evaluateReading (s.fix.lanes[n.val]) c.step.low c.step.high first
      let y := evaluateReading (s.fix.lanes[f.val]) c.step.followerLow c.step.followerHigh taken
      let fault := x.2.2 = .unitFault ∨ y.2.2 = .unitFault
      let pass := x.2.2 = .pass ∧ y.2.2 = .pass
      (fault ∨ pass ∨ c.attempt = c.step.repeats → ∃ w : Work,
        exec (.result f c.step.tag attempt raw flag) s = .next { s with work := w } ∧
        w.results = s.work.results ++
          [{ tag := c.step.tag, lane := n, origin := .host, error := none, attempts := c.attemptsUsed + 1
             verdict := if fault then .unitFault else if pass then .pass else .fail
             value := x.1, raw := some first.raw, settle := c.captured, saturated := x.2.1 || y.2.1
             capped := c.capped, overpost := c.overpost, token := c.token
             follower := some (y.1, some raw.toInt) }] ∧
        (w.lane n).cur = none ∧ (w.lane f).run = q ∧ (w.lane f).remembered = none ∧ (w.lane f).frozen = false ∧
        (∀ a, a = n ∨ a = f →
          (w.lane a).src = (if auto a then false else (s.work.lane a).src) ∧
          (w.lane a).gate = (if auto a then false else (s.work.lane a).gate) ∧
          (w.lane a).c1 = (s.work.lane a).c1 ∧ (w.lane a).c2 = (s.work.lane a).c2) ∧
        ∀ k, (w.node k).holder =
          if k ∈ c.nodes.map (·.1) ∧ (s.work.node k).holder = .lane n then .none else (s.work.node k).holder)) ∧
    (∀ first : Reading, c.leader.reading = some first → s.work.rested → c.step.flags.adaptive = false →
      c.step.settle ≠ 0 → l.tx.length < 32 → m.tx.length < 32 →
      let x := evaluateReading (s.fix.lanes[n.val]) c.step.low c.step.high first
      let y := evaluateReading (s.fix.lanes[f.val]) c.step.followerLow c.step.followerHigh taken
      let settle := min 65535 (c.step.settle * 2 ^ (c.attempt + 1))
      let setup := UnitMessage.setup c.step.tag (c.attempt + 1) c.step.function c.step.range c.step.stimulus
      let low := fun (a : LaneId) (k : Lane) => if auto a then { k with src := false, gate := false } else k
      x.2.2 ≠ .unitFault → y.2.2 ≠ .unitFault → ¬ (x.2.2 = .pass ∧ y.2.2 = .pass) → c.attempt ≠ c.step.repeats →
      exec (.result f c.step.tag attempt raw flag) s =
        .next
          { s with
            work :=
              (s.work.setLane f (low f { m with rx := .hunting, tx := m.tx ++ [setup] })).setLane n
                (low n
                  { l with
                    c0 := Channel.startDown s.clock c.step.flags.coarse settle, c3 := l.c3.stop, tx := l.tx ++ [setup]
                    cur := some
                      { c with
                        phase := .settle, attempt := c.attempt + 1, settle := settle
                        attemptsUsed := c.attemptsUsed + 1, saturated := x.2.1 || y.2.1
                        leader := ⟨false, none, none, x.1, some first.raw⟩
                        follower := ⟨false, none, none, y.1, some raw.toInt⟩ } }) })) ∧
  ∀ (s : State) (n f : LaneId) (c : CurStep) (q : RunState), (n = 0 ∧ f = 1) ∨ (n = 2 ∧ f = 3) →
    let l := s.work.lane n
    let m := s.work.lane f
    let action := (s.fix.lanes[n.val]).timeoutAction
    let low := fun (a : LaneId) (k : Lane) =>
      if (s.fix.lanes[a.val]).lineMode = .auto then { k with src := false, gate := false } else k
    l.cur = some c → c.step.flags.fused = true → c.phase = .readyWait ∨ c.phase = .resultWait →
    l.c3.expiring = true → m.run = .following → m.remembered = some q → c.step.origin = .host →
    l.pendingHold = false → s.work.nodes.order = [] → l.tx.length < 32 → m.tx.length < 32 →
    s.work.results.length < 128 → ∃ w : Work, exec (.timeout n) s = .next { s with work := w } ∧
      w.results = s.work.results ++
        [{ tag := c.step.tag, lane := n, origin := .host, verdict := .timeout, error := none
           attempts := c.attemptsUsed + 1, value := if action = .substitute then 8388607 else -8388608
           raw := c.leader.raw, settle := c.captured, saturated := action = .substitute, capped := c.capped
           overpost := c.overpost, token := c.token
           follower := some (if action = .substitute then 8388607 else -8388608, c.follower.raw) }] ∧
      w.lane n =
        low n
          { l with
            cur := none, tx := l.tx ++ [.cancel c.step.tag c.attempt]
            run := if action = .halt then .halted else if l.run = .pausing then .paused else l.run
            c0 := l.c0.stop, c1 := l.c1.stop, c2 := l.c2.stop
            c3 := { l.c3 with counting := false, count := 0, start := none, due := false } } ∧
      w.lane f =
        low f
          { m with
            run := q, remembered := none, frozen := false, c1 := m.c1.stop, c2 := m.c2.stop
            tx := m.tx ++ [.cancel c.step.tag c.attempt] } ∧
      (∀ k, (w.node k).holder =
        if k ∈ c.nodes.map (·.1) ∧ (s.work.node k).holder = .lane n then .none else (s.work.node k).holder) ∧
      ∀ a, a ≠ n → a ≠ f → w.lane a = s.work.lane a

/-! ### Safety -/

/-- The safety triggers (R177, R179, R180, R182, R183): ABORT_ALL, a fall of SEATED and a fall of ABORT_N each raise
their cause and in READY ask for one OPEN_ALL, joined to one that stands (the model's reading, log entry 11); a CLOSE
shift is abandoned when SEATED falls (R50). A lane with no step goes HELD unless STOPPED, a FOLLOWING one losing its
remembered state. A step in FUSE_WAIT, TOKEN_WAIT or CLAIM, or kept, is kept with its resume point, off the claim order
list and its marks cleared; a FUSED one resumes at FUSE_WAIT and its follower's freeze is released (R145). A step in
DELIVER, or aborted into it, leaves its lane a pending hold (R185). A step past CLAIM is aborted (R184): with a place in
the result queue its record is delivered at the trigger, its nodes are freed and its lane is HELD, and on a FUSED step the
follower is HELD with no freeze and nothing remembered (R145). That a fall of SEATED or ABORT_N leaves the pin and the last
sample low with the filtered level is the model's choice (log entry 4). -/
def Obligations.SafetyTriggersHoldEveryLane : Prop :=
  (∀ s : State, s.work.rested →
    let asked := fun (c : Chain) =>
      if c.state = .ready ∧ c.shiftingOpenAll = false ∧ c.requests = [] then
        { c with requests := [⟨.checked, true⟩] }
      else c
    let unclosed :=
      { s.work.chain with
        shift :=
          match s.work.chain.shift with
          | some ⟨.frame (.close _ _), ends⟩ => some ⟨.abandoned, ends⟩
          | x => x }
    let raised := fun (bit : BitVec 5) => s.work.notices.set 0 (s.work.notices[0] ||| bit)
    let triggers := fun (outcome : Work → Chain → BitVec 5 → Prop) =>
      (∃ w : Work, exec .abortAll s = .next { s with work := w.reply 0x12 .ok [] } ∧ outcome w s.work.chain 4 ∧
        w.port = s.work.port) ∧
      (s.inputs.abortN.level = true → ∃ w : Work,
        exec .abortNEdge s =
          .next
            { s with inputs := { s.inputs with abortNPin := false, abortN := ⟨false, false, false⟩ }, work := w } ∧
        outcome w s.work.chain 4) ∧
      (s.inputs.seated.level = true → ∃ w : Work,
        exec .seatingChangeUnseated s =
          .next
            { s with inputs := { s.inputs with seatedPin := false, seated := ⟨false, false, false⟩ }, work := w } ∧
        outcome w unclosed 1)
    let keeps := fun a : LaneId =>
      match (s.work.lane a).cur with | some c => decide (c.phase ≠ .deliver) | none => false
    let keepsFused := fun a : LaneId =>
      match (s.work.lane a).cur with | some c => c.step.flags.fused && decide (c.phase ≠ .deliver) | none => false
    let point := fun c : CurStep =>
      if c.step.flags.fused then ResumePoint.fuseWait
      else match c.phase with
        | .fuseWait => .fuseWait | .tokenWait => .tokenWait | .claim => .claim | _ => c.resume.getD .claim
    let hit := fun l : Lane =>
      match l.cur with
      | none => if l.run = .stopped then l else { l with run := .held, remembered := none }
      | some c =>
        if c.phase = .deliver then { l with pendingHold := true }
        else
          { l with
            run := .held, remembered := none, cur := some { c with phase := .none, resume := some (point c) }
            c0 := l.c0.stop, c1 := l.c1.stop, c2 := l.c2.stop, c3 := l.c3.stop }
    ((∀ n : LaneId, (s.work.lane n).cur = none) →
      triggers fun w chain bit => (∀ n : LaneId, w.lane n = hit (s.work.lane n)) ∧
        w = { s.work with lanes := w.lanes, chain := asked chain, notices := raised bit }) ∧
    (entriesWf s.work.nodes.entries → s.work.chain.waiting = [] → s.work.dueNodes = [] →
      (∀ (n : LaneId) (c : CurStep), (s.work.lane n).cur = some c →
        c.phase = .none ∨ c.phase = .fuseWait ∨ c.phase = .tokenWait ∨ c.phase = .claim ∨
          (c.phase = .deliver ∧ 128 ≤ s.work.results.length)) →
      (∀ a ∈ s.work.nodes.order, keeps a = true) →
      triggers fun w chain bit =>
        (∀ n : LaneId, w.lane n =
          { hit (s.work.lane n) with
            frozen :=
              if (n = 1 ∧ keepsFused 0 = true) ∨ (n = 3 ∧ keepsFused 2 = true) then false
              else (s.work.lane n).frozen }) ∧
        (∀ m, w.node m =
          { s.work.node m with
            waiter :=
              match (s.work.node m).waiter with
              | some a => if keeps a = true then none else some a
              | none => none }) ∧
        w = { s.work with
              lanes := w.lanes, nodes := { s.work.nodes with entries := w.nodes.entries, order := [] }
              chain := asked chain, notices := raised bit }) ∧
    (∀ (n : LaneId) (c : CurStep), (s.work.lane n).cur = some c → c.phase.pastClaim = true →
      (∀ m, m ≠ n → (s.work.lane m).cur = none) → (c.step.flags.fused = true → n = 0 ∨ n = 2) →
      c.step.origin = .host → (∀ m : LaneId, (s.work.lane m).tx.length < 32) → (s.work.lane n).frozen = false →
      s.work.nodes.order = [] → s.work.results.length < 128 →
      let auto := fun m : LaneId => (s.fix.lanes[m.val]).lineMode = .auto
      let ended := fun m : LaneId =>
        let l := s.work.lane m
        if c.step.flags.fused = true ∧ m = n + 1 then
          { l with
            frozen := false, c1 := l.c1.stop, c2 := l.c2.stop, tx := l.tx ++ [.cancel c.step.tag c.attempt]
            src := if auto m then false else l.src, gate := if auto m then false else l.gate }
        else l
      triggers fun w chain bit =>
        w.results = s.work.results ++ [c.toRecord n .aborted] ∧
        (w.lane n).cur = none ∧ (w.lane n).run = .held ∧ (w.lane n).pendingHold = false ∧
        (w.lane n).tx = (s.work.lane n).tx ++ [.cancel c.step.tag c.attempt] ∧
        (auto n → (w.lane n).src = false ∧ (w.lane n).gate = false) ∧
        (∀ m, m ≠ n → w.lane m = hit (ended m)) ∧
        (∀ k, (w.node k).holder =
          if k ∈ c.nodes.map (·.1) ∧ (s.work.node k).holder = .lane n then .none else (s.work.node k).holder) ∧
        w.chain.requests = (asked chain).requests ∧ n ∉ w.chain.holds ∧
        w.notices[0] = s.work.notices[0] ||| bit) ∧
    (s.inputs.abortN.level = false → exec .abortNEdge s = .next s) ∧
    (s.inputs.seated.level = false → exec .seatingChangeUnseated s = .next s)) ∧
  ∀ (w : Work) (e : Env) (n : LaneId) (c : CurStep), (w.lane n).cur = some c →
    c.phase = .switch ∨ c.phase = .settle ∨ c.phase = .readyWait ∨ c.phase = .source ∨ c.phase = .gate ∨
      c.phase = .resultWait →
    let t := w.abortStep e n c
    w.abortLane e n = t.setLane n { t.lane n with pendingHold := true }

/-- The abort of a step past CLAIM (R81, R144, R184): CANCEL goes to the unit, the lines fall in AUTO mode, all four
channels stop, the quiet hold is released, its nodes are released as every step's are (ReleaseTableFreesANode), and the step stands in DELIVER with its ABORTED record
of the values so far. On a FUSED step CANCEL goes to the follower's unit too, its lines fall and its C1 and C2 stop. -/
def Obligations.AbortedStepIsEndedWhole : Prop :=
  ∀ (w : Work) (e : Env) (n : LaneId) (c : CurStep), (w.lane n).cur = some c →
    (c.step.flags.fused = true → n = 0 ∨ n = 2) → (w.lane n).tx.length < 32 →
    (c.step.flags.fused = true → (w.lane (n + 1)).tx.length < 32) →
    let t := w.abortStep e n c
    let l := w.lane n
    let auto := fun m : LaneId => (e.fix.lanes[m.val]).lineMode = .auto
    t.lane n =
      { l with
        c0 := l.c0.stop, c1 := l.c1.stop, c2 := l.c2.stop, c3 := l.c3.stop
        src := if auto n then false else l.src, gate := if auto n then false else l.gate
        tx := l.tx ++ [.cancel c.step.tag c.attempt]
        cur := some
          { c with
            phase := .deliver, resume := none
            leader := { c.leader with ready := false, held := none, reading := none }
            follower := { c.follower with ready := false, held := none, reading := none }
            record := some
              { tag := c.step.tag, lane := n, origin := c.step.origin, verdict := .aborted, error := none
                attempts := c.attemptsUsed, value := c.leader.value, raw := c.leader.raw, settle := c.captured
                saturated := c.saturated, capped := c.capped, overpost := c.overpost, token := c.token
                follower :=
                  if c.step.flags.fused then some (c.follower.value, c.follower.raw) else none } } } ∧
    (c.step.flags.fused = true →
      let m := w.lane (n + 1)
      t.lane (n + 1) =
        { m with
          c1 := m.c1.stop, c2 := m.c2.stop, tx := m.tx ++ [.cancel c.step.tag c.attempt]
          src := if auto (n + 1) then false else m.src, gate := if auto (n + 1) then false else m.gate }) ∧
    (∀ m, m ≠ n → (c.step.flags.fused = true → m ≠ n + 1) → t.lane m = w.lane m) ∧ n ∉ t.chain.holds ∧
    (∀ m, (t.node m).holder =
      if m ∈ c.nodes.map (·.1) ∧ (w.node m).holder = .lane n then .none else (w.node m).holder) ∧
    t.nodes = (w.releaseStep e n c).nodes ∧ t.chain.queue = (w.releaseStep e n c).chain.queue ∧
      t.chain.waiting = (w.releaseStep e n c).chain.waiting ∧
    t.results = w.results ∧ t.tokens = w.tokens ∧ t.notices = w.notices

/-- CLEAR (R41, R43, R201, R202, R203): every lane is at its starting condition with its link kept. Behind the messages
already waiting stands CANCEL(tag, attempt) of a step from SWITCH to RESULT_WAIT, on both links of a FUSED one, and
nothing else; past 32 messages it is dropped (R196). Tokens, results, causes, marks, claim order, waiting targets and quiet holds are empty;
configuration, inputs and chain state stay. In READY an OPEN_ALL is asked for, otherwise holders, targets and CLOSE
frames go at once. That marks, claim order, waiting targets and quiet holds go at CLEAR itself in READY too is the
model's reading (log entry 10), and that queued OPEN frames stay behind a chain fault its choice (log entry 25). A quiet hold
emptied so is a release: a frame shifts from the next tick (R51). -/
def Obligations.ClearReturnsTheWorkToItsStart : Prop :=
  ∀ s : State,
    let dropped := fun k : LaneId =>
      match (s.work.lane k).cur with
      | some c =>
        if c.phase = .switch ∨ c.phase = .settle ∨ c.phase = .readyWait ∨ c.phase = .source ∨ c.phase = .gate ∨
            c.phase = .resultWait then [c]
        else []
      | none => []
    let led := fun n : LaneId =>
      (if n = 1 then dropped 0 else if n = 3 then dropped 2 else []).filter fun c => c.step.flags.fused
    ∃ w : Work, exec .clear s = .next { s with work := w.reply 0x14 .ok [] } ∧
    (∀ n : LaneId,
      let l := s.work.lane n
      let t := w.lane n
      t = { Lane.reset with rx := l.rx, arrived := l.arrived, sending := l.sending, tx := t.tx } ∧ l.tx <+: t.tx ∧
        (l.tx.length ≤ 32 →
          t.tx =
            (l.tx ++ (led n ++ dropped n).map fun c => UnitMessage.cancel c.step.tag c.attempt).take 32)) ∧
    (∀ k : Fin 32, w.tokens[k.val] = none) ∧ w.results = [] ∧ w.lastDelivering = 3 ∧
    (∀ k : Fin 6, w.notices[k.val] = 0) ∧
    w.nodes.order = [] ∧ w.nodes.lastWinner = 3 ∧ w.chain.waiting = [] ∧ w.chain.holds = [] ∧
    (w.chain.holdOff = true ↔ s.work.chain.holdOff = true ∨ s.work.chain.holds ≠ []) ∧
    w.chain.state = s.work.chain.state ∧ w.chain.inflight = s.work.chain.inflight ∧
    (entriesWf s.work.nodes.entries →
      (∀ m, (w.node m).waiter = none ∧ (w.node m).phase = (s.work.node m).phase ∧
        (w.node m).bus = (s.work.node m).bus) ∧
      (s.work.chain.state ≠ .ready → ∀ m, (w.node m).holder = .none ∧ (w.node m).target = none)) ∧
    (s.work.chain.state ≠ .ready →
      (∀ f ∈ w.chain.queue, ∃ m, f = .opn m) ∧ w.chain.requests = s.work.chain.requests) ∧
    (s.work.chain.state = .ready → w.chain.shiftingOpenAll = true ∨ w.chain.requests ≠ [])
end

