-- ==== Sys2Proof/Laws/Bytes.lean ====
section
/-! SUPPORT. The byte fields of section 11.6 read back what was laid down. -/

namespace Sys2Proof.Bytes

@[simp] theorem u16_of16 (w : BitVec 16) : u16 (w.extractLsb' 8 8) (w.extractLsb' 0 8) = w := by
  apply BitVec.eq_of_getLsbD_eq
  intro i hi
  simp only [u16, BitVec.getLsbD_append, BitVec.getLsbD_extractLsb']
  by_cases h : i < 8
  · simp [h]
  · have : i - 8 < 8 := by omega
    have h8 : 8 + (i - 8) = i := by omega
    simp [h, this, h8]

@[simp] theorem u24_of24 (w : BitVec 24) :
    u24 (w.extractLsb' 16 8) (w.extractLsb' 8 8) (w.extractLsb' 0 8) = w := by
  apply BitVec.eq_of_getLsbD_eq
  intro i hi
  simp only [u24, BitVec.getLsbD_append, BitVec.getLsbD_extractLsb']
  by_cases h : i < 8
  · simp [h]
  · by_cases h' : i - 8 < 8
    · have h8 : 8 + (i - 8) = i := by omega
      simp [h, h', h8]
    · have h16 : 16 + (i - 8 - 8) = i := by omega
      have : i - 8 - 8 < 8 := by omega
      simp [h, h', h16, this]

end Sys2Proof.Bytes
end

