-- ==== Sys2Proof/Laws/State.lean ====
section
/-! SUPPORT. One lemma per field per update of the blocks of work: an operation leaves every field that it does not
name, and a lane, node or port that it writes reads back as written. -/

namespace Sys2Proof.Machine

/-! ### Lanes -/

@[simp] theorem Work.lane_setLane (w : Work) (n : LaneId) (l : Lane) : (w.setLane n l).lane n = l := by
  simp [Work.lane, Work.setLane]

theorem Work.lane_setLane_ne (w : Work) {n m : LaneId} (l : Lane) (h : m ≠ n) :
    (w.setLane n l).lane m = w.lane m := by
  have h' : n.val ≠ m.val := fun e => h (Fin.ext e.symm)
  simp [Work.lane, Work.setLane, Vector.getElem_set_ne _ _ h']

@[simp] theorem Work.lane_onLane (w : Work) (n : LaneId) (f : Lane → Lane) :
    (w.onLane n f).lane n = f (w.lane n) := by
  simp [Work.onLane]

theorem Work.lane_onLane_ne (w : Work) {n m : LaneId} (f : Lane → Lane) (h : m ≠ n) :
    (w.onLane n f).lane m = w.lane m := by
  simp [Work.onLane, Work.lane_setLane_ne w _ h]

@[simp] theorem Work.lane_setCur (w : Work) (n : LaneId) (c : Option CurStep) :
    (w.setCur n c).lane n = { w.lane n with cur := c } := by
  simp [Work.setCur]

theorem Work.lane_setCur_ne (w : Work) {n m : LaneId} (c : Option CurStep) (h : m ≠ n) :
    (w.setCur n c).lane m = w.lane m := by
  simp [Work.setCur, Work.lane_onLane_ne w _ h]

@[simp] theorem Work.setLane_setLane (w : Work) (n : LaneId) (l k : Lane) :
    (w.setLane n l).setLane n k = w.setLane n k := by
  simp [Work.setLane]

@[simp] theorem Work.setLane_lane (w : Work) (n : LaneId) : w.setLane n (w.lane n) = w := by
  simp [Work.setLane, Work.lane]

/-- A state of the blocks is fixed by its lanes and its other fields. -/
theorem Work.ext_lanes {w v : Work} (hl : ∀ n : LaneId, w.lane n = v.lane n) (hn : w.nodes = v.nodes)
    (hc : w.chain = v.chain) (ht : w.tokens = v.tokens) (hr : w.results = v.results)
    (hd : w.lastDelivering = v.lastDelivering) (ha : w.notices = v.notices) (hp : w.port = v.port)
    (hw : w.wake = v.wake) (hf : w.freed = v.freed) : w = v := by
  cases w; cases v
  simp only [Work.mk.injEq]
  refine ⟨?_, hn, hc, ht, hr, hd, ha, hp, hw, hf⟩
  apply Vector.ext
  intro i hi
  exact hl ⟨i, hi⟩

@[simp] theorem Work.lane_tick (w : Work) (t : Time) (n : LaneId) : (w.tick t).lane n = (w.lane n).tick t := by
  simp [Work.lane, Work.tick]

@[simp] theorem clockLinks_lane (s : State) (n : LaneId) :
    (clockLinks s).work.lane n = (s.work.lane n).clockLink (arriving s.inputs.lines[n.val]) := by
  simp [clockLinks, Work.lane]

/-! ### The host port -/

@[simp] theorem Work.port_reply (w : Work) (e : Byte) (c : ReplyCode) (b : List Byte) :
    (w.reply e c b).port = ⟨some ⟨e, c, b⟩, false⟩ := rfl

/-! ### Answers -/

@[simp] theorem onWork_eq (s : State) (f : Work → Work) : onWork s f = .next { s with work := f s.work } := rfl

/-! ### What each update leaves -/

@[simp] theorem Work.setLane_nodes (w : Work) (n : LaneId) (l : Lane) : (w.setLane n l).nodes = w.nodes := rfl
@[simp] theorem Work.setLane_chain (w : Work) (n : LaneId) (l : Lane) : (w.setLane n l).chain = w.chain := rfl
@[simp] theorem Work.setLane_tokens (w : Work) (n : LaneId) (l : Lane) : (w.setLane n l).tokens = w.tokens := rfl
@[simp] theorem Work.setLane_results (w : Work) (n : LaneId) (l : Lane) : (w.setLane n l).results = w.results := rfl
@[simp] theorem Work.setLane_lastDelivering (w : Work) (n : LaneId) (l : Lane) : (w.setLane n l).lastDelivering = w.lastDelivering := rfl
@[simp] theorem Work.setLane_notices (w : Work) (n : LaneId) (l : Lane) : (w.setLane n l).notices = w.notices := rfl
@[simp] theorem Work.setLane_port (w : Work) (n : LaneId) (l : Lane) : (w.setLane n l).port = w.port := rfl
@[simp] theorem Work.setLane_wake (w : Work) (n : LaneId) (l : Lane) : (w.setLane n l).wake = w.wake := rfl
@[simp] theorem Work.setLane_freed (w : Work) (n : LaneId) (l : Lane) : (w.setLane n l).freed = w.freed := rfl
@[simp] theorem Work.setLane_node (w : Work) (n : LaneId) (l : Lane) (i : Nat) : (w.setLane n l).node i = w.node i := rfl

@[simp] theorem Work.onLane_nodes (w : Work) (n : LaneId) (f : Lane → Lane) : (w.onLane n f).nodes = w.nodes := rfl
@[simp] theorem Work.onLane_chain (w : Work) (n : LaneId) (f : Lane → Lane) : (w.onLane n f).chain = w.chain := rfl
@[simp] theorem Work.onLane_tokens (w : Work) (n : LaneId) (f : Lane → Lane) : (w.onLane n f).tokens = w.tokens := rfl
@[simp] theorem Work.onLane_results (w : Work) (n : LaneId) (f : Lane → Lane) : (w.onLane n f).results = w.results := rfl
@[simp] theorem Work.onLane_lastDelivering (w : Work) (n : LaneId) (f : Lane → Lane) : (w.onLane n f).lastDelivering = w.lastDelivering := rfl
@[simp] theorem Work.onLane_notices (w : Work) (n : LaneId) (f : Lane → Lane) : (w.onLane n f).notices = w.notices := rfl
@[simp] theorem Work.onLane_port (w : Work) (n : LaneId) (f : Lane → Lane) : (w.onLane n f).port = w.port := rfl
@[simp] theorem Work.onLane_wake (w : Work) (n : LaneId) (f : Lane → Lane) : (w.onLane n f).wake = w.wake := rfl
@[simp] theorem Work.onLane_freed (w : Work) (n : LaneId) (f : Lane → Lane) : (w.onLane n f).freed = w.freed := rfl
@[simp] theorem Work.onLane_node (w : Work) (n : LaneId) (f : Lane → Lane) (i : Nat) : (w.onLane n f).node i = w.node i := rfl

@[simp] theorem Work.setCur_nodes (w : Work) (n : LaneId) (c : Option CurStep) : (w.setCur n c).nodes = w.nodes := rfl
@[simp] theorem Work.setCur_chain (w : Work) (n : LaneId) (c : Option CurStep) : (w.setCur n c).chain = w.chain := rfl
@[simp] theorem Work.setCur_tokens (w : Work) (n : LaneId) (c : Option CurStep) : (w.setCur n c).tokens = w.tokens := rfl
@[simp] theorem Work.setCur_results (w : Work) (n : LaneId) (c : Option CurStep) : (w.setCur n c).results = w.results := rfl
@[simp] theorem Work.setCur_lastDelivering (w : Work) (n : LaneId) (c : Option CurStep) : (w.setCur n c).lastDelivering = w.lastDelivering := rfl
@[simp] theorem Work.setCur_notices (w : Work) (n : LaneId) (c : Option CurStep) : (w.setCur n c).notices = w.notices := rfl
@[simp] theorem Work.setCur_port (w : Work) (n : LaneId) (c : Option CurStep) : (w.setCur n c).port = w.port := rfl
@[simp] theorem Work.setCur_wake (w : Work) (n : LaneId) (c : Option CurStep) : (w.setCur n c).wake = w.wake := rfl
@[simp] theorem Work.setCur_freed (w : Work) (n : LaneId) (c : Option CurStep) : (w.setCur n c).freed = w.freed := rfl
@[simp] theorem Work.setCur_node (w : Work) (n : LaneId) (c : Option CurStep) (i : Nat) : (w.setCur n c).node i = w.node i := rfl

@[simp] theorem Work.tick_chain (w : Work) (t : Time) : (w.tick t).chain = w.chain.tick := rfl
@[simp] theorem Work.tick_nodes (w : Work) (t : Time) : (w.tick t).nodes = w.nodes := rfl
@[simp] theorem Work.tick_tokens (w : Work) (t : Time) : (w.tick t).tokens = w.tokens := rfl
@[simp] theorem Work.tick_results (w : Work) (t : Time) : (w.tick t).results = w.results := rfl
@[simp] theorem Work.tick_lastDelivering (w : Work) (t : Time) : (w.tick t).lastDelivering = w.lastDelivering := rfl
@[simp] theorem Work.tick_notices (w : Work) (t : Time) : (w.tick t).notices = w.notices := rfl
@[simp] theorem Work.tick_port (w : Work) (t : Time) : (w.tick t).port = w.port := rfl
@[simp] theorem Work.tick_wake (w : Work) (t : Time) : (w.tick t).wake = w.wake := rfl
@[simp] theorem Work.tick_freed (w : Work) (t : Time) : (w.tick t).freed = w.freed := rfl
@[simp] theorem Work.tick_node (w : Work) (t : Time) (i : Nat) : (w.tick t).node i = w.node i := rfl

@[simp] theorem Work.reply_lanes (w : Work) (e : Byte) (c : ReplyCode) (b : List Byte) : (w.reply e c b).lanes = w.lanes := rfl
@[simp] theorem Work.reply_nodes (w : Work) (e : Byte) (c : ReplyCode) (b : List Byte) : (w.reply e c b).nodes = w.nodes := rfl
@[simp] theorem Work.reply_chain (w : Work) (e : Byte) (c : ReplyCode) (b : List Byte) : (w.reply e c b).chain = w.chain := rfl
@[simp] theorem Work.reply_tokens (w : Work) (e : Byte) (c : ReplyCode) (b : List Byte) : (w.reply e c b).tokens = w.tokens := rfl
@[simp] theorem Work.reply_results (w : Work) (e : Byte) (c : ReplyCode) (b : List Byte) : (w.reply e c b).results = w.results := rfl
@[simp] theorem Work.reply_lastDelivering (w : Work) (e : Byte) (c : ReplyCode) (b : List Byte) : (w.reply e c b).lastDelivering = w.lastDelivering := rfl
@[simp] theorem Work.reply_notices (w : Work) (e : Byte) (c : ReplyCode) (b : List Byte) : (w.reply e c b).notices = w.notices := rfl
@[simp] theorem Work.reply_wake (w : Work) (e : Byte) (c : ReplyCode) (b : List Byte) : (w.reply e c b).wake = w.wake := rfl
@[simp] theorem Work.reply_freed (w : Work) (e : Byte) (c : ReplyCode) (b : List Byte) : (w.reply e c b).freed = w.freed := rfl
@[simp] theorem Work.reply_lane (w : Work) (e : Byte) (c : ReplyCode) (b : List Byte) (i : LaneId) : (w.reply e c b).lane i = w.lane i := rfl
@[simp] theorem Work.reply_node (w : Work) (e : Byte) (c : ReplyCode) (b : List Byte) (i : Nat) : (w.reply e c b).node i = w.node i := rfl

@[simp] theorem Work.raise_lanes (w : Work) (c : Cause) : (w.raise c).lanes = w.lanes := rfl
@[simp] theorem Work.raise_nodes (w : Work) (c : Cause) : (w.raise c).nodes = w.nodes := rfl
@[simp] theorem Work.raise_chain (w : Work) (c : Cause) : (w.raise c).chain = w.chain := rfl
@[simp] theorem Work.raise_tokens (w : Work) (c : Cause) : (w.raise c).tokens = w.tokens := rfl
@[simp] theorem Work.raise_results (w : Work) (c : Cause) : (w.raise c).results = w.results := rfl
@[simp] theorem Work.raise_lastDelivering (w : Work) (c : Cause) : (w.raise c).lastDelivering = w.lastDelivering := rfl
@[simp] theorem Work.raise_port (w : Work) (c : Cause) : (w.raise c).port = w.port := rfl
@[simp] theorem Work.raise_wake (w : Work) (c : Cause) : (w.raise c).wake = w.wake := rfl
@[simp] theorem Work.raise_freed (w : Work) (c : Cause) : (w.raise c).freed = w.freed := rfl
@[simp] theorem Work.raise_lane (w : Work) (c : Cause) (i : LaneId) : (w.raise c).lane i = w.lane i := rfl
@[simp] theorem Work.raise_node (w : Work) (c : Cause) (i : Nat) : (w.raise c).node i = w.node i := rfl

@[simp] theorem Work.setNode_lanes (w : Work) (n : Nat) (x : NodeEntry) : (w.setNode n x).lanes = w.lanes := rfl
@[simp] theorem Work.setNode_chain (w : Work) (n : Nat) (x : NodeEntry) : (w.setNode n x).chain = w.chain := rfl
@[simp] theorem Work.setNode_tokens (w : Work) (n : Nat) (x : NodeEntry) : (w.setNode n x).tokens = w.tokens := rfl
@[simp] theorem Work.setNode_results (w : Work) (n : Nat) (x : NodeEntry) : (w.setNode n x).results = w.results := rfl
@[simp] theorem Work.setNode_lastDelivering (w : Work) (n : Nat) (x : NodeEntry) : (w.setNode n x).lastDelivering = w.lastDelivering := rfl
@[simp] theorem Work.setNode_notices (w : Work) (n : Nat) (x : NodeEntry) : (w.setNode n x).notices = w.notices := rfl
@[simp] theorem Work.setNode_port (w : Work) (n : Nat) (x : NodeEntry) : (w.setNode n x).port = w.port := rfl
@[simp] theorem Work.setNode_wake (w : Work) (n : Nat) (x : NodeEntry) : (w.setNode n x).wake = w.wake := rfl
@[simp] theorem Work.setNode_freed (w : Work) (n : Nat) (x : NodeEntry) : (w.setNode n x).freed = w.freed := rfl
@[simp] theorem Work.setNode_lane (w : Work) (n : Nat) (x : NodeEntry) (i : LaneId) : (w.setNode n x).lane i = w.lane i := rfl
@[simp] theorem Work.setNode_nodes_linger (w : Work) (n : Nat) (x : NodeEntry) : (w.setNode n x).nodes.linger = w.nodes.linger := rfl
@[simp] theorem Work.setNode_nodes_order (w : Work) (n : Nat) (x : NodeEntry) : (w.setNode n x).nodes.order = w.nodes.order := rfl
@[simp] theorem Work.setNode_nodes_lastWinner (w : Work) (n : Nat) (x : NodeEntry) : (w.setNode n x).nodes.lastWinner = w.nodes.lastWinner := rfl

@[simp] theorem Work.onNode_lanes (w : Work) (n : Nat) (f : NodeEntry → NodeEntry) : (w.onNode n f).lanes = w.lanes := rfl
@[simp] theorem Work.onNode_chain (w : Work) (n : Nat) (f : NodeEntry → NodeEntry) : (w.onNode n f).chain = w.chain := rfl
@[simp] theorem Work.onNode_tokens (w : Work) (n : Nat) (f : NodeEntry → NodeEntry) : (w.onNode n f).tokens = w.tokens := rfl
@[simp] theorem Work.onNode_results (w : Work) (n : Nat) (f : NodeEntry → NodeEntry) : (w.onNode n f).results = w.results := rfl
@[simp] theorem Work.onNode_lastDelivering (w : Work) (n : Nat) (f : NodeEntry → NodeEntry) : (w.onNode n f).lastDelivering = w.lastDelivering := rfl
@[simp] theorem Work.onNode_notices (w : Work) (n : Nat) (f : NodeEntry → NodeEntry) : (w.onNode n f).notices = w.notices := rfl
@[simp] theorem Work.onNode_port (w : Work) (n : Nat) (f : NodeEntry → NodeEntry) : (w.onNode n f).port = w.port := rfl
@[simp] theorem Work.onNode_wake (w : Work) (n : Nat) (f : NodeEntry → NodeEntry) : (w.onNode n f).wake = w.wake := rfl
@[simp] theorem Work.onNode_freed (w : Work) (n : Nat) (f : NodeEntry → NodeEntry) : (w.onNode n f).freed = w.freed := rfl
@[simp] theorem Work.onNode_lane (w : Work) (n : Nat) (f : NodeEntry → NodeEntry) (i : LaneId) : (w.onNode n f).lane i = w.lane i := rfl
@[simp] theorem Work.onNode_nodes_linger (w : Work) (n : Nat) (f : NodeEntry → NodeEntry) : (w.onNode n f).nodes.linger = w.nodes.linger := rfl
@[simp] theorem Work.onNode_nodes_order (w : Work) (n : Nat) (f : NodeEntry → NodeEntry) : (w.onNode n f).nodes.order = w.nodes.order := rfl
@[simp] theorem Work.onNode_nodes_lastWinner (w : Work) (n : Nat) (f : NodeEntry → NodeEntry) : (w.onNode n f).nodes.lastWinner = w.nodes.lastWinner := rfl

@[simp] theorem Work.onNodes_lanes (w : Work) (f : NodeEntry → NodeEntry) : (w.onNodes f).lanes = w.lanes := rfl
@[simp] theorem Work.onNodes_chain (w : Work) (f : NodeEntry → NodeEntry) : (w.onNodes f).chain = w.chain := rfl
@[simp] theorem Work.onNodes_tokens (w : Work) (f : NodeEntry → NodeEntry) : (w.onNodes f).tokens = w.tokens := rfl
@[simp] theorem Work.onNodes_results (w : Work) (f : NodeEntry → NodeEntry) : (w.onNodes f).results = w.results := rfl
@[simp] theorem Work.onNodes_lastDelivering (w : Work) (f : NodeEntry → NodeEntry) : (w.onNodes f).lastDelivering = w.lastDelivering := rfl
@[simp] theorem Work.onNodes_notices (w : Work) (f : NodeEntry → NodeEntry) : (w.onNodes f).notices = w.notices := rfl
@[simp] theorem Work.onNodes_port (w : Work) (f : NodeEntry → NodeEntry) : (w.onNodes f).port = w.port := rfl
@[simp] theorem Work.onNodes_wake (w : Work) (f : NodeEntry → NodeEntry) : (w.onNodes f).wake = w.wake := rfl
@[simp] theorem Work.onNodes_freed (w : Work) (f : NodeEntry → NodeEntry) : (w.onNodes f).freed = w.freed := rfl
@[simp] theorem Work.onNodes_lane (w : Work) (f : NodeEntry → NodeEntry) (i : LaneId) : (w.onNodes f).lane i = w.lane i := rfl
@[simp] theorem Work.onNodes_nodes_linger (w : Work) (f : NodeEntry → NodeEntry) : (w.onNodes f).nodes.linger = w.nodes.linger := rfl
@[simp] theorem Work.onNodes_nodes_order (w : Work) (f : NodeEntry → NodeEntry) : (w.onNodes f).nodes.order = w.nodes.order := rfl
@[simp] theorem Work.onNodes_nodes_lastWinner (w : Work) (f : NodeEntry → NodeEntry) : (w.onNodes f).nodes.lastWinner = w.nodes.lastWinner := rfl

@[simp] theorem Work.unlinger_lanes (w : Work) (n : Nat) : (w.unlinger n).lanes = w.lanes := rfl
@[simp] theorem Work.unlinger_chain (w : Work) (n : Nat) : (w.unlinger n).chain = w.chain := rfl
@[simp] theorem Work.unlinger_tokens (w : Work) (n : Nat) : (w.unlinger n).tokens = w.tokens := rfl
@[simp] theorem Work.unlinger_results (w : Work) (n : Nat) : (w.unlinger n).results = w.results := rfl
@[simp] theorem Work.unlinger_lastDelivering (w : Work) (n : Nat) : (w.unlinger n).lastDelivering = w.lastDelivering := rfl
@[simp] theorem Work.unlinger_notices (w : Work) (n : Nat) : (w.unlinger n).notices = w.notices := rfl
@[simp] theorem Work.unlinger_port (w : Work) (n : Nat) : (w.unlinger n).port = w.port := rfl
@[simp] theorem Work.unlinger_wake (w : Work) (n : Nat) : (w.unlinger n).wake = w.wake := rfl
@[simp] theorem Work.unlinger_freed (w : Work) (n : Nat) : (w.unlinger n).freed = w.freed := rfl
@[simp] theorem Work.unlinger_lane (w : Work) (n : Nat) (i : LaneId) : (w.unlinger n).lane i = w.lane i := rfl
@[simp] theorem Work.unlinger_nodes_entries (w : Work) (n : Nat) : (w.unlinger n).nodes.entries = w.nodes.entries := rfl
@[simp] theorem Work.unlinger_nodes_order (w : Work) (n : Nat) : (w.unlinger n).nodes.order = w.nodes.order := rfl
@[simp] theorem Work.unlinger_nodes_lastWinner (w : Work) (n : Nat) : (w.unlinger n).nodes.lastWinner = w.nodes.lastWinner := rfl
@[simp] theorem Work.unlinger_node (w : Work) (n : Nat) (i : Nat) : (w.unlinger n).node i = w.node i := rfl

@[simp] theorem Work.setDue_lanes (w : Work) (n : Nat) : (w.setDue n).lanes = w.lanes := rfl
@[simp] theorem Work.setDue_chain (w : Work) (n : Nat) : (w.setDue n).chain = w.chain := rfl
@[simp] theorem Work.setDue_tokens (w : Work) (n : Nat) : (w.setDue n).tokens = w.tokens := rfl
@[simp] theorem Work.setDue_results (w : Work) (n : Nat) : (w.setDue n).results = w.results := rfl
@[simp] theorem Work.setDue_lastDelivering (w : Work) (n : Nat) : (w.setDue n).lastDelivering = w.lastDelivering := rfl
@[simp] theorem Work.setDue_notices (w : Work) (n : Nat) : (w.setDue n).notices = w.notices := rfl
@[simp] theorem Work.setDue_port (w : Work) (n : Nat) : (w.setDue n).port = w.port := rfl
@[simp] theorem Work.setDue_wake (w : Work) (n : Nat) : (w.setDue n).wake = w.wake := rfl
@[simp] theorem Work.setDue_freed (w : Work) (n : Nat) : (w.setDue n).freed = w.freed := rfl
@[simp] theorem Work.setDue_lane (w : Work) (n : Nat) (i : LaneId) : (w.setDue n).lane i = w.lane i := rfl
@[simp] theorem Work.setDue_nodes_linger (w : Work) (n : Nat) : (w.setDue n).nodes.linger = w.nodes.linger := rfl
@[simp] theorem Work.setDue_nodes_order (w : Work) (n : Nat) : (w.setDue n).nodes.order = w.nodes.order := rfl
@[simp] theorem Work.setDue_nodes_lastWinner (w : Work) (n : Nat) : (w.setDue n).nodes.lastWinner = w.nodes.lastWinner := rfl

@[simp] theorem Work.joinClaim_lanes (w : Work) (a : LaneId) : (w.joinClaim a).lanes = w.lanes := rfl
@[simp] theorem Work.joinClaim_chain (w : Work) (a : LaneId) : (w.joinClaim a).chain = w.chain := rfl
@[simp] theorem Work.joinClaim_freed (w : Work) (a : LaneId) : (w.joinClaim a).freed = w.freed := rfl
@[simp] theorem Work.joinClaim_tokens (w : Work) (a : LaneId) : (w.joinClaim a).tokens = w.tokens := rfl
@[simp] theorem Work.joinClaim_results (w : Work) (a : LaneId) : (w.joinClaim a).results = w.results := rfl
@[simp] theorem Work.joinClaim_lastDelivering (w : Work) (a : LaneId) : (w.joinClaim a).lastDelivering = w.lastDelivering := rfl
@[simp] theorem Work.joinClaim_notices (w : Work) (a : LaneId) : (w.joinClaim a).notices = w.notices := rfl
@[simp] theorem Work.joinClaim_port (w : Work) (a : LaneId) : (w.joinClaim a).port = w.port := rfl
@[simp] theorem Work.joinClaim_lane (w : Work) (a : LaneId) (i : LaneId) : (w.joinClaim a).lane i = w.lane i := rfl
@[simp] theorem Work.joinClaim_nodes_entries (w : Work) (a : LaneId) : (w.joinClaim a).nodes.entries = w.nodes.entries := rfl
@[simp] theorem Work.joinClaim_nodes_linger (w : Work) (a : LaneId) : (w.joinClaim a).nodes.linger = w.nodes.linger := rfl
@[simp] theorem Work.joinClaim_nodes_lastWinner (w : Work) (a : LaneId) : (w.joinClaim a).nodes.lastWinner = w.nodes.lastWinner := rfl
@[simp] theorem Work.joinClaim_node (w : Work) (a : LaneId) (i : Nat) : (w.joinClaim a).node i = w.node i := rfl

@[simp] theorem Work.enqueue_lanes (w : Work) (f : Frame) : (w.enqueue f).lanes = w.lanes := rfl
@[simp] theorem Work.enqueue_nodes (w : Work) (f : Frame) : (w.enqueue f).nodes = w.nodes := rfl
@[simp] theorem Work.enqueue_tokens (w : Work) (f : Frame) : (w.enqueue f).tokens = w.tokens := rfl
@[simp] theorem Work.enqueue_results (w : Work) (f : Frame) : (w.enqueue f).results = w.results := rfl
@[simp] theorem Work.enqueue_lastDelivering (w : Work) (f : Frame) : (w.enqueue f).lastDelivering = w.lastDelivering := rfl
@[simp] theorem Work.enqueue_notices (w : Work) (f : Frame) : (w.enqueue f).notices = w.notices := rfl
@[simp] theorem Work.enqueue_port (w : Work) (f : Frame) : (w.enqueue f).port = w.port := rfl
@[simp] theorem Work.enqueue_wake (w : Work) (f : Frame) : (w.enqueue f).wake = w.wake := rfl
@[simp] theorem Work.enqueue_freed (w : Work) (f : Frame) : (w.enqueue f).freed = w.freed := rfl
@[simp] theorem Work.enqueue_lane (w : Work) (f : Frame) (i : LaneId) : (w.enqueue f).lane i = w.lane i := rfl
@[simp] theorem Work.enqueue_node (w : Work) (f : Frame) (i : Nat) : (w.enqueue f).node i = w.node i := rfl
@[simp] theorem Work.enqueue_chain_state (w : Work) (f : Frame) : (w.enqueue f).chain.state = w.chain.state := rfl
@[simp] theorem Work.enqueue_chain_waiting (w : Work) (f : Frame) : (w.enqueue f).chain.waiting = w.chain.waiting := rfl
@[simp] theorem Work.enqueue_chain_shift (w : Work) (f : Frame) : (w.enqueue f).chain.shift = w.chain.shift := rfl
@[simp] theorem Work.enqueue_chain_requests (w : Work) (f : Frame) : (w.enqueue f).chain.requests = w.chain.requests := rfl
@[simp] theorem Work.enqueue_chain_inflight (w : Work) (f : Frame) : (w.enqueue f).chain.inflight = w.chain.inflight := rfl
@[simp] theorem Work.enqueue_chain_holds (w : Work) (f : Frame) : (w.enqueue f).chain.holds = w.chain.holds := rfl
@[simp] theorem Work.enqueue_chain_holdOff (w : Work) (f : Frame) : (w.enqueue f).chain.holdOff = w.chain.holdOff := rfl
@[simp] theorem Work.enqueue_chain_closeHoldOff (w : Work) (f : Frame) : (w.enqueue f).chain.closeHoldOff = w.chain.closeHoldOff := rfl

@[simp] theorem Work.withdraw_lanes (w : Work) (f : Frame) : (w.withdraw f).lanes = w.lanes := rfl
@[simp] theorem Work.withdraw_nodes (w : Work) (f : Frame) : (w.withdraw f).nodes = w.nodes := rfl
@[simp] theorem Work.withdraw_tokens (w : Work) (f : Frame) : (w.withdraw f).tokens = w.tokens := rfl
@[simp] theorem Work.withdraw_results (w : Work) (f : Frame) : (w.withdraw f).results = w.results := rfl
@[simp] theorem Work.withdraw_lastDelivering (w : Work) (f : Frame) : (w.withdraw f).lastDelivering = w.lastDelivering := rfl
@[simp] theorem Work.withdraw_notices (w : Work) (f : Frame) : (w.withdraw f).notices = w.notices := rfl
@[simp] theorem Work.withdraw_port (w : Work) (f : Frame) : (w.withdraw f).port = w.port := rfl
@[simp] theorem Work.withdraw_lane (w : Work) (f : Frame) (i : LaneId) : (w.withdraw f).lane i = w.lane i := rfl
@[simp] theorem Work.withdraw_node (w : Work) (f : Frame) (i : Nat) : (w.withdraw f).node i = w.node i := rfl
@[simp] theorem Work.withdraw_chain_state (w : Work) (f : Frame) : (w.withdraw f).chain.state = w.chain.state := rfl
@[simp] theorem Work.withdraw_chain_waiting (w : Work) (f : Frame) : (w.withdraw f).chain.waiting = w.chain.waiting := rfl
@[simp] theorem Work.withdraw_chain_requests (w : Work) (f : Frame) : (w.withdraw f).chain.requests = w.chain.requests := rfl
@[simp] theorem Work.withdraw_chain_inflight (w : Work) (f : Frame) : (w.withdraw f).chain.inflight = w.chain.inflight := rfl
@[simp] theorem Work.withdraw_chain_holds (w : Work) (f : Frame) : (w.withdraw f).chain.holds = w.chain.holds := rfl
@[simp] theorem Work.withdraw_chain_holdOff (w : Work) (f : Frame) : (w.withdraw f).chain.holdOff = w.chain.holdOff := rfl
@[simp] theorem Work.withdraw_chain_closeHoldOff (w : Work) (f : Frame) : (w.withdraw f).chain.closeHoldOff = w.chain.closeHoldOff := rfl

@[simp] theorem Work.moveWaiting_lanes (w : Work) : (w.moveWaiting).lanes = w.lanes := rfl
@[simp] theorem Work.moveWaiting_nodes (w : Work) : (w.moveWaiting).nodes = w.nodes := rfl
@[simp] theorem Work.moveWaiting_tokens (w : Work) : (w.moveWaiting).tokens = w.tokens := rfl
@[simp] theorem Work.moveWaiting_results (w : Work) : (w.moveWaiting).results = w.results := rfl
@[simp] theorem Work.moveWaiting_lastDelivering (w : Work) : (w.moveWaiting).lastDelivering = w.lastDelivering := rfl
@[simp] theorem Work.moveWaiting_notices (w : Work) : (w.moveWaiting).notices = w.notices := rfl
@[simp] theorem Work.moveWaiting_port (w : Work) : (w.moveWaiting).port = w.port := rfl
@[simp] theorem Work.moveWaiting_wake (w : Work) : (w.moveWaiting).wake = w.wake := rfl
@[simp] theorem Work.moveWaiting_freed (w : Work) : (w.moveWaiting).freed = w.freed := rfl
@[simp] theorem Work.moveWaiting_lane (w : Work) (i : LaneId) : (w.moveWaiting).lane i = w.lane i := rfl
@[simp] theorem Work.moveWaiting_node (w : Work) (i : Nat) : (w.moveWaiting).node i = w.node i := rfl
@[simp] theorem Work.moveWaiting_chain_state (w : Work) : (w.moveWaiting).chain.state = w.chain.state := rfl
@[simp] theorem Work.moveWaiting_chain_shift (w : Work) : (w.moveWaiting).chain.shift = w.chain.shift := rfl
@[simp] theorem Work.moveWaiting_chain_requests (w : Work) : (w.moveWaiting).chain.requests = w.chain.requests := rfl
@[simp] theorem Work.moveWaiting_chain_inflight (w : Work) : (w.moveWaiting).chain.inflight = w.chain.inflight := rfl
@[simp] theorem Work.moveWaiting_chain_holds (w : Work) : (w.moveWaiting).chain.holds = w.chain.holds := rfl
@[simp] theorem Work.moveWaiting_chain_holdOff (w : Work) : (w.moveWaiting).chain.holdOff = w.chain.holdOff := rfl
@[simp] theorem Work.moveWaiting_chain_closeHoldOff (w : Work) : (w.moveWaiting).chain.closeHoldOff = w.chain.closeHoldOff := rfl

@[simp] theorem Work.popInflight_lanes (w : Work) : (w.popInflight).lanes = w.lanes := rfl
@[simp] theorem Work.popInflight_nodes (w : Work) : (w.popInflight).nodes = w.nodes := rfl
@[simp] theorem Work.popInflight_tokens (w : Work) : (w.popInflight).tokens = w.tokens := rfl
@[simp] theorem Work.popInflight_results (w : Work) : (w.popInflight).results = w.results := rfl
@[simp] theorem Work.popInflight_lastDelivering (w : Work) : (w.popInflight).lastDelivering = w.lastDelivering := rfl
@[simp] theorem Work.popInflight_notices (w : Work) : (w.popInflight).notices = w.notices := rfl
@[simp] theorem Work.popInflight_port (w : Work) : (w.popInflight).port = w.port := rfl
@[simp] theorem Work.popInflight_lane (w : Work) (i : LaneId) : (w.popInflight).lane i = w.lane i := rfl
@[simp] theorem Work.popInflight_node (w : Work) (i : Nat) : (w.popInflight).node i = w.node i := rfl
@[simp] theorem Work.popInflight_chain_state (w : Work) : (w.popInflight).chain.state = w.chain.state := rfl
@[simp] theorem Work.popInflight_chain_queue (w : Work) : (w.popInflight).chain.queue = w.chain.queue := rfl
@[simp] theorem Work.popInflight_chain_waiting (w : Work) : (w.popInflight).chain.waiting = w.chain.waiting := rfl
@[simp] theorem Work.popInflight_chain_shift (w : Work) : (w.popInflight).chain.shift = w.chain.shift := rfl
@[simp] theorem Work.popInflight_chain_requests (w : Work) : (w.popInflight).chain.requests = w.chain.requests := rfl
@[simp] theorem Work.popInflight_chain_holds (w : Work) : (w.popInflight).chain.holds = w.chain.holds := rfl
@[simp] theorem Work.popInflight_chain_holdOff (w : Work) : (w.popInflight).chain.holdOff = w.chain.holdOff := rfl
@[simp] theorem Work.popInflight_chain_closeHoldOff (w : Work) : (w.popInflight).chain.closeHoldOff = w.chain.closeHoldOff := rfl

@[simp] theorem Work.requestUnchecked_lanes (w : Work) : w.requestUnchecked.lanes = w.lanes := rfl
@[simp] theorem Work.requestUnchecked_nodes (w : Work) : w.requestUnchecked.nodes = w.nodes := rfl
@[simp] theorem Work.requestUnchecked_tokens (w : Work) : w.requestUnchecked.tokens = w.tokens := rfl
@[simp] theorem Work.requestUnchecked_results (w : Work) : w.requestUnchecked.results = w.results := rfl
@[simp] theorem Work.requestUnchecked_lastDelivering (w : Work) : w.requestUnchecked.lastDelivering = w.lastDelivering := rfl
@[simp] theorem Work.requestUnchecked_notices (w : Work) : w.requestUnchecked.notices = w.notices := rfl
@[simp] theorem Work.requestUnchecked_port (w : Work) : w.requestUnchecked.port = w.port := rfl
@[simp] theorem Work.requestUnchecked_wake (w : Work) : w.requestUnchecked.wake = w.wake := rfl
@[simp] theorem Work.requestUnchecked_freed (w : Work) : w.requestUnchecked.freed = w.freed := rfl
@[simp] theorem Work.requestUnchecked_lane (w : Work) (i : LaneId) : w.requestUnchecked.lane i = w.lane i := rfl
@[simp] theorem Work.requestUnchecked_node (w : Work) (i : Nat) : w.requestUnchecked.node i = w.node i := rfl
@[simp] theorem Work.requestUnchecked_chain_state (w : Work) : w.requestUnchecked.chain.state = w.chain.state := rfl
@[simp] theorem Work.requestUnchecked_chain_queue (w : Work) : w.requestUnchecked.chain.queue = w.chain.queue := rfl
@[simp] theorem Work.requestUnchecked_chain_waiting (w : Work) : w.requestUnchecked.chain.waiting = w.chain.waiting := rfl
@[simp] theorem Work.requestUnchecked_chain_shift (w : Work) : w.requestUnchecked.chain.shift = w.chain.shift := rfl
@[simp] theorem Work.requestUnchecked_chain_inflight (w : Work) : w.requestUnchecked.chain.inflight = w.chain.inflight := rfl
@[simp] theorem Work.requestUnchecked_chain_holds (w : Work) : w.requestUnchecked.chain.holds = w.chain.holds := rfl
@[simp] theorem Work.requestUnchecked_chain_holdOff (w : Work) : w.requestUnchecked.chain.holdOff = w.chain.holdOff := rfl
@[simp] theorem Work.requestUnchecked_chain_closeHoldOff (w : Work) : w.requestUnchecked.chain.closeHoldOff = w.chain.closeHoldOff := rfl

@[simp] theorem Work.abandonClose_lanes (w : Work) : (w.abandonClose).lanes = w.lanes := rfl
@[simp] theorem Work.abandonClose_nodes (w : Work) : (w.abandonClose).nodes = w.nodes := rfl
@[simp] theorem Work.abandonClose_tokens (w : Work) : (w.abandonClose).tokens = w.tokens := rfl
@[simp] theorem Work.abandonClose_results (w : Work) : (w.abandonClose).results = w.results := rfl
@[simp] theorem Work.abandonClose_lastDelivering (w : Work) : (w.abandonClose).lastDelivering = w.lastDelivering := rfl
@[simp] theorem Work.abandonClose_notices (w : Work) : (w.abandonClose).notices = w.notices := rfl
@[simp] theorem Work.abandonClose_port (w : Work) : (w.abandonClose).port = w.port := rfl
@[simp] theorem Work.abandonClose_wake (w : Work) : (w.abandonClose).wake = w.wake := rfl
@[simp] theorem Work.abandonClose_freed (w : Work) : (w.abandonClose).freed = w.freed := rfl
@[simp] theorem Work.abandonClose_lane (w : Work) (i : LaneId) : (w.abandonClose).lane i = w.lane i := rfl
@[simp] theorem Work.abandonClose_node (w : Work) (i : Nat) : (w.abandonClose).node i = w.node i := rfl
@[simp] theorem Work.abandonClose_chain_state (w : Work) : (w.abandonClose).chain.state = w.chain.state := rfl
@[simp] theorem Work.abandonClose_chain_queue (w : Work) : (w.abandonClose).chain.queue = w.chain.queue := rfl
@[simp] theorem Work.abandonClose_chain_waiting (w : Work) : (w.abandonClose).chain.waiting = w.chain.waiting := rfl
@[simp] theorem Work.abandonClose_chain_requests (w : Work) : (w.abandonClose).chain.requests = w.chain.requests := rfl
@[simp] theorem Work.abandonClose_chain_inflight (w : Work) : (w.abandonClose).chain.inflight = w.chain.inflight := rfl
@[simp] theorem Work.abandonClose_chain_holds (w : Work) : (w.abandonClose).chain.holds = w.chain.holds := rfl
@[simp] theorem Work.abandonClose_chain_holdOff (w : Work) : (w.abandonClose).chain.holdOff = w.chain.holdOff := rfl
@[simp] theorem Work.abandonClose_chain_closeHoldOff (w : Work) : (w.abandonClose).chain.closeHoldOff = w.chain.closeHoldOff := rfl

/-! ### The relay chain engine at a tick -/

@[simp] theorem Chain.tick_state (c : Chain) : c.tick.state = c.state := rfl
@[simp] theorem Chain.tick_queue (c : Chain) : c.tick.queue = c.queue := rfl
@[simp] theorem Chain.tick_waiting (c : Chain) : c.tick.waiting = c.waiting := rfl
@[simp] theorem Chain.tick_shift (c : Chain) : c.tick.shift = c.shift := rfl
@[simp] theorem Chain.tick_inflight (c : Chain) : c.tick.inflight = c.inflight := rfl
@[simp] theorem Chain.tick_holds (c : Chain) : c.tick.holds = c.holds := rfl
@[simp] theorem Chain.tick_holdOff (c : Chain) : c.tick.holdOff = false := rfl
@[simp] theorem Chain.tick_closeHoldOff (c : Chain) : c.tick.closeHoldOff = false := rfl
@[simp] theorem Chain.tick_requests (c : Chain) :
    c.tick.requests = c.requests.map fun r => { r with fresh := false } := rfl

/-! ### The links at a clock -/

theorem Lane.receive_hunting {l : Lane} (h : l.rx = .hunting) (b : LineByte) :
    l.receive b = { l with arrived := some b } := by
  simp [Lane.receive, h]

/-- A byte in time with its stop bit high joins the frame (R194). -/
theorem Lane.receive_taken {l : Lane} {b : LineByte} {taken : List Byte} {gap : Nat} (h : l.rx = .inFrame taken gap)
    (hb : b.stop = true) (hg : gap ≤ Config.gapClocks) :
    l.receive b = { l with rx := .inFrame (taken ++ [b.value]) 0 } := by
  simp [Lane.receive, h, hb, hg]

/-- A byte with a low stop bit, or one that comes too late, waits for its event (R194). -/
theorem Lane.receive_refused {l : Lane} {b : LineByte} {taken : List Byte} {gap : Nat}
    (h : l.rx = .inFrame taken gap) (hb : b.stop = false ∨ Config.gapClocks < gap) :
    l.receive b = { l with arrived := some b } := by
  have : ¬ (b.stop = true ∧ gap ≤ Config.gapClocks) := by
    rintro ⟨hs, hg⟩
    rcases hb with hb | hb
    · simp [hs] at hb
    · omega
  simp [Lane.receive, h, this]

/-- A clock changes nothing of a lane but its receiver and the clocks of the message being sent. -/
theorem Lane.clockLink_eq (l : Lane) (b : Option LineByte) :
    l.clockLink b =
      { l with
        rx := (l.clockLink b).rx, arrived := (l.clockLink b).arrived, sending := l.sending.map fun k => k - 1 } := by
  cases b with
  | none => rfl
  | some b =>
    simp only [Lane.clockLink, Lane.receive]
    split
    · split <;> rfl
    · rfl

end Sys2Proof.Machine
end

