-- ==== Sys2Proof/Laws/NodeEntries.lean ====
section
/-! SUPPORT. The node map's entries: what a write and a map of the entries read as afterwards, and that each keeps
the canonical form. -/

namespace Sys2Proof.Machine

/-! ### Reading -/

theorem entryAt_filter_self (es : List (Nat × NodeEntry)) (n : Nat) :
    entryAt (es.filter fun p => p.1 != n) n = .reset := by
  induction es with
  | nil => rfl
  | cons p es ih =>
    by_cases h : p.1 = n
    · simp [h, ih]
    · simp [h, entryAt, ih]

theorem entryAt_filter_ne (es : List (Nat × NodeEntry)) {n m : Nat} (h : m ≠ n) :
    entryAt (es.filter fun p => p.1 != n) m = entryAt es m := by
  induction es with
  | nil => rfl
  | cons p es ih =>
    by_cases hp : p.1 = n
    · have : p.1 ≠ m := fun e => h (e ▸ hp)
      simp [hp, entryAt, ih, Ne.symm h]
    · rw [List.filter_cons_of_pos (by simpa using hp)]
      by_cases hm : p.1 = m <;> simp [entryAt, hm, ih]

theorem entryAt_insertEntry_self (es : List (Nat × NodeEntry)) (n : Nat) (x : NodeEntry)
    (h : ∀ p ∈ es, p.1 ≠ n) : entryAt (insertEntry n x es) n = x := by
  induction es with
  | nil => simp [insertEntry, entryAt]
  | cons p es ih =>
    have hp := h p (by simp)
    simp only [insertEntry]
    split
    · simp [entryAt]
    · simp [entryAt, hp, ih fun q hq => h q (by simp [hq])]

theorem entryAt_insertEntry_ne (es : List (Nat × NodeEntry)) {n m : Nat} (x : NodeEntry) (h : m ≠ n) :
    entryAt (insertEntry n x es) m = entryAt es m := by
  induction es with
  | nil => simp [insertEntry, entryAt, Ne.symm h]
  | cons p es ih =>
    simp only [insertEntry]
    split
    · simp [entryAt, Ne.symm h]
    · simp only [entryAt, ih]

/-- A written entry reads back. -/
@[simp] theorem entryAt_putEntry_self (es : List (Nat × NodeEntry)) (n : Nat) (x : NodeEntry) :
    entryAt (putEntry es n x) n = x := by
  unfold putEntry
  split
  · next h => rw [entryAt_filter_self, h]
  · exact entryAt_insertEntry_self _ _ _ (by simp)

/-- A write leaves every other entry. -/
theorem entryAt_putEntry_ne (es : List (Nat × NodeEntry)) {n m : Nat} (x : NodeEntry) (h : m ≠ n) :
    entryAt (putEntry es n x) m = entryAt es m := by
  unfold putEntry
  split
  · exact entryAt_filter_ne es h
  · rw [entryAt_insertEntry_ne _ _ h, entryAt_filter_ne es h]

@[simp] theorem Work.node_setNode (w : Work) (n : Nat) (x : NodeEntry) : (w.setNode n x).node n = x := by
  simp [Work.node, Work.setNode]

theorem Work.node_setNode_ne (w : Work) {n m : Nat} (x : NodeEntry) (h : m ≠ n) :
    (w.setNode n x).node m = w.node m := by
  simp [Work.node, Work.setNode, entryAt_putEntry_ne _ _ h]

theorem Work.node_setNode_eq (w : Work) (n m : Nat) (x : NodeEntry) :
    (w.setNode n x).node m = if m = n then x else w.node m := by
  by_cases h : m = n
  · simp [h]
  · simp [h, Work.node_setNode_ne w x h]

@[simp] theorem Work.node_onNode (w : Work) (n : Nat) (f : NodeEntry → NodeEntry) :
    (w.onNode n f).node n = f (w.node n) := by
  simp [Work.onNode]

theorem Work.node_onNode_ne (w : Work) {n m : Nat} (f : NodeEntry → NodeEntry) (h : m ≠ n) :
    (w.onNode n f).node m = w.node m := by
  simp [Work.onNode, Work.node_setNode_ne w _ h]

/-! ### The canonical form -/

theorem mem_insertEntry {es : List (Nat × NodeEntry)} {n : Nat} {x : NodeEntry} {p : Nat × NodeEntry}
    (h : p ∈ insertEntry n x es) : p = (n, x) ∨ p ∈ es := by
  induction es with
  | nil => exact .inl (by simpa [insertEntry] using h)
  | cons q es ih =>
    simp only [insertEntry] at h
    split at h
    · simpa using h
    · rcases List.mem_cons.1 h with h | h
      · exact .inr (by simp [h])
      · rcases ih h with h | h
        · exact .inl h
        · exact .inr (by simp [h])

theorem pairwise_insertEntry (es : List (Nat × NodeEntry)) (n : Nat) (x : NodeEntry)
    (hs : (es.map (·.1)).Pairwise (· < ·)) (hn : ∀ p ∈ es, p.1 ≠ n) :
    ((insertEntry n x es).map (·.1)).Pairwise (· < ·) := by
  induction es with
  | nil => simp [insertEntry]
  | cons p es ih =>
    simp only [List.map_cons, List.pairwise_cons] at hs
    have hp := hn p (by simp)
    simp only [insertEntry]
    split
    · next hlt =>
      simp only [List.map_cons, List.pairwise_cons]
      refine ⟨?_, hs⟩
      intro k hk
      rcases List.mem_cons.1 hk with hk | hk
      · rw [hk]; exact hlt
      · exact Nat.lt_trans hlt (hs.1 k hk)
    · next hle =>
      simp only [List.map_cons, List.pairwise_cons]
      refine ⟨?_, ih hs.2 fun q hq => hn q (by simp [hq])⟩
      intro k hk
      obtain ⟨q, hq, rfl⟩ := List.mem_map.1 hk
      rcases mem_insertEntry hq with rfl | hq
      · show p.1 < n
        omega
      · exact hs.1 q.1 (List.mem_map.2 ⟨q, hq, rfl⟩)

/-- A write keeps the canonical form. -/
theorem entriesWf_putEntry {es : List (Nat × NodeEntry)} (h : entriesWf es) (n : Nat) (x : NodeEntry) :
    entriesWf (putEntry es n x) := by
  obtain ⟨hs, hr⟩ := h
  have hsub : ((es.filter fun p => p.1 != n).map (·.1)).Pairwise (· < ·) :=
    hs.sublist (List.Sublist.map _ List.filter_sublist)
  unfold putEntry
  split
  · exact ⟨hsub, fun p hp => hr p (List.mem_filter.1 hp).1⟩
  · next hx =>
    refine ⟨pairwise_insertEntry _ n x hsub (by simp), fun p hp => ?_⟩
    rcases mem_insertEntry hp with rfl | hp
    · exact hx
    · exact hr p (List.mem_filter.1 hp).1

/-- A map of the entries keeps the canonical form. -/
theorem entriesWf_mapEntries {es : List (Nat × NodeEntry)} (h : entriesWf es) (f : NodeEntry → NodeEntry) :
    entriesWf (mapEntries f es) := by
  refine ⟨?_, fun p hp => ?_⟩
  · refine h.1.sublist ?_
    have : (es.map fun p => (p.1, f p.2)).map (·.1) = es.map (·.1) := by simp
    rw [← this]
    exact List.Sublist.map _ List.filter_sublist
  · simpa [mapEntries] using (List.mem_filter.1 hp).2

/-- The form holds at hard reset. -/
theorem entriesWf_reset : entriesWf NodeMap.reset.entries := ⟨List.Pairwise.nil, by simp [NodeMap.reset]⟩

/-- In the canonical form, a listed entry is what its node reads as. -/
theorem entryAt_of_mem {es : List (Nat × NodeEntry)} (h : entriesWf es) {n : Nat} {x : NodeEntry}
    (hm : (n, x) ∈ es) : entryAt es n = x := by
  induction es with
  | nil => simp at hm
  | cons p es ih =>
    have hs := h.1
    simp only [List.map_cons, List.pairwise_cons] at hs
    rcases List.mem_cons.1 hm with rfl | hm
    · simp [entryAt]
    · have hlt := hs.1 n (List.mem_map.2 ⟨(n, x), hm, rfl⟩)
      have hne : p.1 ≠ n := Nat.ne_of_lt hlt
      have := ih ⟨hs.2, fun q hq => h.2 q (by simp [hq])⟩ hm
      obtain ⟨k, y⟩ := p
      simpa [entryAt, hne] using this

/-- A node that reads other than at reset is listed. -/
theorem mem_of_entryAt {es : List (Nat × NodeEntry)} {n : Nat} (h : entryAt es n ≠ .reset) :
    (n, entryAt es n) ∈ es := by
  induction es with
  | nil => simp [entryAt] at h
  | cons p es ih =>
    obtain ⟨k, y⟩ := p
    by_cases hk : k = n
    · subst hk; simp [entryAt]
    · simp only [entryAt, hk, if_false] at h ⊢
      exact List.mem_cons_of_mem _ (ih h)

theorem entryAt_filterReset {es : List (Nat × NodeEntry)} (hs : (es.map (·.1)).Pairwise (· < ·)) (n : Nat) :
    entryAt (es.filter fun p => p.2 != .reset) n = entryAt es n := by
  induction es with
  | nil => rfl
  | cons p es ih =>
    obtain ⟨k, y⟩ := p
    simp only [List.map_cons, List.pairwise_cons] at hs
    by_cases hy : y = .reset
    · by_cases hk : k = n
      · subst hk
        have hnone : ∀ es : List (Nat × NodeEntry), (∀ q ∈ es, k < q.1) → entryAt es k = .reset := by
          intro es
          induction es with
          | nil => intro _; rfl
          | cons q es ih' =>
            intro hq
            have h1 := hq q (by simp)
            obtain ⟨a, b⟩ := q
            have : a ≠ k := by simp at h1; omega
            simp [entryAt, this, ih' fun q hq' => hq q (by simp [hq'])]
        rw [List.filter_cons_of_neg (by simp [hy]), ih hs.2,
          hnone es fun q hq => hs.1 q.1 (List.mem_map.2 ⟨q, hq, rfl⟩)]
        simp [entryAt, hy]
      · rw [List.filter_cons_of_neg (by simp [hy]), ih hs.2]
        simp [entryAt, hk]
    · rw [List.filter_cons_of_pos (by simp [hy])]
      simp only [entryAt, ih hs.2]

theorem entryAt_map (f : NodeEntry → NodeEntry) (hf : f .reset = .reset) (es : List (Nat × NodeEntry)) (n : Nat) :
    entryAt (es.map fun p => (p.1, f p.2)) n = f (entryAt es n) := by
  induction es with
  | nil => simp [entryAt, hf]
  | cons p es ih =>
    obtain ⟨k, y⟩ := p
    by_cases hk : k = n <;> simp [entryAt, hk, ih]

/-- On entries in the canonical form, a map by a function that keeps the reset value acts on every node. -/
theorem entryAt_mapEntries {es : List (Nat × NodeEntry)} (h : entriesWf es) {f : NodeEntry → NodeEntry}
    (hf : f .reset = .reset) (n : Nat) : entryAt (mapEntries f es) n = f (entryAt es n) := by
  unfold mapEntries
  rw [entryAt_filterReset _ n, entryAt_map f hf]
  have : (es.map fun p => (p.1, f p.2)).map (·.1) = es.map (·.1) := by simp
  rw [this]
  exact h.1

theorem Work.node_onNodes {w : Work} (h : entriesWf w.nodes.entries) {f : NodeEntry → NodeEntry}
    (hf : f .reset = .reset) (n : Nat) : (w.onNodes f).node n = f (w.node n) :=
  entryAt_mapEntries h hf n

end Sys2Proof.Machine
end

