-- ==== Sys2Proof/Laws/Keeps.lean ====
section
/-! SUPPORT. What every shared operation on the blocks of work keeps: the capacities and list forms of Work.Sound,
the in-flight list, the chain state, and the shift in progress but for its abandonment. One lemma per operation. -/

namespace Sys2Proof.Machine

/-- The second part arises from the first by the part's shared operations. -/
structure Work.Keeps (w v : Work) : Prop where
  sound : w.Sound → v.Sound
  inflight : v.chain.inflight = w.chain.inflight
  state : v.chain.state = w.chain.state
  shift : v.chain.shift = w.chain.shift ∨
    ∃ f ends, w.chain.shift = some ⟨.frame f, ends⟩ ∧ v.chain.shift = some ⟨.abandoned, ends⟩

namespace Keeping

theorem refl (w : Work) : w.Keeps w := ⟨id, rfl, rfl, .inl rfl⟩

theorem trans {u v w : Work} (h : u.Keeps v) (k : v.Keeps w) : u.Keeps w := by
  refine ⟨k.sound ∘ h.sound, k.inflight.trans h.inflight, k.state.trans h.state, ?_⟩
  rcases k.shift with hk | ⟨f, e, hv, hw⟩
  · rcases h.shift with hh | ⟨f, e, hu, hv⟩
    · exact .inl (hk.trans hh)
    · exact .inr ⟨f, e, hu, hk.trans hv⟩
  · rcases h.shift with hh | ⟨f', e', hu, hv'⟩
    · exact .inr ⟨f, e, hh ▸ hv, hw⟩
    · rw [hv] at hv'; simp at hv'

theorem foldl {α : Type} (f : Work → α → Work) (h : ∀ (w : Work) (x : α), w.Keeps (f w x)) (xs : List α) (w : Work) :
    w.Keeps (xs.foldl f w) := by
  induction xs generalizing w with
  | nil => exact refl w
  | cons x xs ih => exact trans (h w x) (ih (f w x))

theorem foldlPair {α : Type} (f : Work × Bool → α → Work × Bool) (h : ∀ (p : Work × Bool) (x : α), p.1.Keeps (f p x).1) (xs : List α)
    (p : Work × Bool) : p.1.Keeps (xs.foldl f p).1 := by
  induction xs generalizing p with
  | nil => exact refl p.1
  | cons x xs ih => exact trans (h p x) (ih (f p x))

/-- An update of fields that Sound and the shift do not read. -/
theorem of_same {w v : Work} (hr : v.results = w.results) (ht : ∀ n : LaneId, (v.lane n).tx = (w.lane n).tx)
    (hn : v.nodes = w.nodes) (hc : v.chain = w.chain) : w.Keeps v := by
  refine ⟨fun s => ⟨?_, ?_, ?_, ?_, ?_, ?_⟩, by rw [hc], by rw [hc], .inl (by rw [hc])⟩
  · rw [hr]; exact s.results
  · intro n; rw [ht]; exact s.transmit n
  · rw [hn]; exact s.linger
  · rw [hn]; exact s.order
  · rw [hc]; exact s.holds
  · rw [hn]; exact s.entries

/-- An update of the node map alone. -/
theorem of_nodes {w v : Work} (hr : v.results = w.results) (ht : ∀ n : LaneId, (v.lane n).tx = (w.lane n).tx)
    (hc : v.chain = w.chain)
    (hn : w.Sound → v.nodes.linger.length ≤ Config.lingerCap ∧ v.nodes.order.Nodup ∧ entriesWf v.nodes.entries) :
    w.Keeps v := by
  refine ⟨fun s => ⟨?_, ?_, (hn s).1, (hn s).2.1, ?_, (hn s).2.2⟩, by rw [hc], by rw [hc], .inl (by rw [hc])⟩
  · rw [hr]; exact s.results
  · intro n; rw [ht]; exact s.transmit n
  · rw [hc]; exact s.holds

/-- An update of the chain's queue, lists and requests. -/
theorem of_chain {w v : Work} (hr : v.results = w.results) (ht : ∀ n : LaneId, (v.lane n).tx = (w.lane n).tx)
    (hn : v.nodes = w.nodes) (hi : v.chain.inflight = w.chain.inflight) (hs : v.chain.state = w.chain.state)
    (hh : w.chain.holds.Nodup → v.chain.holds.Nodup)
    (hx : v.chain.shift = w.chain.shift ∨
      ∃ f ends, w.chain.shift = some ⟨.frame f, ends⟩ ∧ v.chain.shift = some ⟨.abandoned, ends⟩) : w.Keeps v := by
  refine ⟨fun s => ⟨?_, ?_, ?_, ?_, hh s.holds, ?_⟩, hi, hs, hx⟩
  · rw [hr]; exact s.results
  · intro n; rw [ht]; exact s.transmit n
  · rw [hn]; exact s.linger
  · rw [hn]; exact s.order
  · rw [hn]; exact s.entries

theorem setLane (w : Work) (n : LaneId) (l : Lane) (h : l.tx = (w.lane n).tx) : w.Keeps (w.setLane n l) := by
  refine of_same rfl (fun m => ?_) rfl rfl
  by_cases hm : m = n
  · subst hm; simpa using h
  · rw [Work.lane_setLane_ne w l hm]

theorem onLane (w : Work) (n : LaneId) (f : Lane → Lane) (h : (f (w.lane n)).tx = (w.lane n).tx) :
    w.Keeps (w.onLane n f) := setLane w n _ h

theorem setCur (w : Work) (n : LaneId) (c : Option CurStep) : w.Keeps (w.setCur n c) := onLane w n _ rfl

theorem setNode (w : Work) (n : Nat) (x : NodeEntry) : w.Keeps (w.setNode n x) :=
  of_nodes rfl (fun _ => rfl) rfl fun s => ⟨s.linger, s.order, entriesWf_putEntry s.entries n x⟩

theorem onNode (w : Work) (n : Nat) (f : NodeEntry → NodeEntry) : w.Keeps (w.onNode n f) := setNode w n _

theorem setDue (w : Work) (n : Nat) : w.Keeps (w.setDue n) := onNode w n _

theorem onNodes (w : Work) (f : NodeEntry → NodeEntry) : w.Keeps (w.onNodes f) :=
  of_nodes rfl (fun _ => rfl) rfl fun s => ⟨s.linger, s.order, entriesWf_mapEntries s.entries f⟩

theorem setTokens (w : Work) (ts : Vector Token 32) : w.Keeps { w with tokens := ts } :=
  of_same rfl (fun _ => rfl) rfl rfl

theorem setWake (w : Work) (b : Bool) : w.Keeps { w with wake := b } := of_same rfl (fun _ => rfl) rfl rfl

theorem setMarks (w : Work) (b d : Bool) : w.Keeps { w with wake := b, freed := d } :=
  of_same rfl (fun _ => rfl) rfl rfl

theorem raise (w : Work) (c : Cause) : w.Keeps (w.raise c) := of_same rfl (fun _ => rfl) rfl rfl

theorem reply (w : Work) (e : Byte) (c : ReplyCode) (b : List Byte) : w.Keeps (w.reply e c b) :=
  of_same rfl (fun _ => rfl) rfl rfl

theorem drive (w : Work) (e : Env) (n : LaneId) (src gate : Bool) : w.Keeps (w.drive e n src gate) := by
  unfold Work.drive; split
  · exact onLane w n _ rfl
  · exact refl w

theorem driveAll (w : Work) (e : Env) (ns : List LaneId) (src gate : Bool) :
    w.Keeps (w.driveAll e ns src gate) := foldl _ (fun w n => drive w e n src gate) ns w

theorem send (w : Work) (n : LaneId) (m : UnitMessage) : w.Keeps (w.send n m) := by
  unfold Work.send; split
  · next h =>
    refine ⟨fun s => ⟨s.results, fun i => ?_, s.linger, s.order, s.holds, s.entries⟩, rfl, rfl, .inl rfl⟩
    by_cases hi : i = n
    · subst hi; simp; omega
    · rw [Work.lane_onLane_ne w _ hi]; exact s.transmit i
  · exact raise w _

theorem sendAll (w : Work) (ns : List LaneId) (m : UnitMessage) : w.Keeps (w.sendAll ns m) :=
  foldl _ (fun w n => send w n m) ns w

theorem noteRemoval (w : Work) (e : Env) (n : LaneId) (a b : Nat) : w.Keeps (w.noteRemoval e n a b) := by
  unfold Work.noteRemoval; dsimp only; split
  · exact raise w _
  · exact refl w

theorem startWatch (w : Work) (e : Env) (n : LaneId) (r : StepRecord) : w.Keeps (w.startWatch e n r) :=
  onLane w n _ rfl

theorem stopAll (w : Work) (n : LaneId) : w.Keeps (w.stopAll n) := onLane w n _ rfl

theorem stopPair (w : Work) (n : LaneId) : w.Keeps (w.stopPair n) := onLane w n _ rfl

theorem stopStep (w : Work) (n : LaneId) (r : StepRecord) : w.Keeps (w.stopStep n r) := by
  unfold Work.stopStep; split
  · exact trans (stopAll w n) (stopPair _ _)
  · exact stopAll w n

theorem startEach (w : Work) (ns : List LaneId) (f : Lane → Lane) (h : ∀ l, (f l).tx = l.tx) :
    w.Keeps (w.startEach ns f) := foldl _ (fun w n => onLane w n f (h _)) ns w

theorem clearMarks (w : Work) (a : LaneId) : w.Keeps (w.clearMarks a) := by
  unfold Work.clearMarks; split
  · exact trans (onNodes w _) (setWake _ true)
  · exact refl w

theorem leaveClaim (w : Work) (a : LaneId) : w.Keeps (w.leaveClaim a) := by
  unfold Work.leaveClaim
  refine trans (v := { w with nodes := { w.nodes with order := w.nodes.order.filter (· != a) } }) ?_ (clearMarks _ a)
  exact of_nodes rfl (fun _ => rfl) rfl fun s => ⟨s.linger, s.order.filter _, s.entries⟩

theorem joinClaim (w : Work) (a : LaneId) : w.Keeps (w.joinClaim a) := by
  refine of_nodes rfl (fun _ => rfl) rfl fun s => ⟨s.linger, ?_, s.entries⟩
  refine List.Nodup.append (s.order.filter _) (by simp) ?_
  intro b hb hb'
  simp only [List.mem_singleton] at hb'
  subst hb'
  simp at hb

theorem unlinger (w : Work) (n : Nat) : w.Keeps (w.unlinger n) :=
  of_nodes rfl (fun _ => rfl) rfl fun s =>
    ⟨Nat.le_trans (List.length_filter_le _ _) s.linger, s.order, s.entries⟩

theorem length_insertLinger (n : Nat) (t : Time) (ls : List (Nat × Time)) :
    (insertLinger n t ls).length = ls.length + 1 := by
  induction ls with
  | nil => rfl
  | cons p ls ih => obtain ⟨k, u⟩ := p; simp only [insertLinger]; split <;> simp [ih]

theorem addLinger (w : Work) (n : Nat) (t : Time) : w.Keeps (w.addLinger n t) := by
  have hlen := length_insertLinger n t w.nodes.linger
  unfold Work.addLinger; dsimp only; split
  · next k u rest h =>
    rw [h] at hlen
    simp only [List.length_cons] at hlen
    split
    · refine trans (v := { w with nodes := { w.nodes with linger := rest } }) ?_ (setDue _ k)
      exact of_nodes rfl (fun _ => rfl) rfl fun s => ⟨by have := s.linger; simp; omega, s.order, s.entries⟩
    · next hle =>
      refine of_nodes rfl (fun _ => rfl) rfl fun s => ⟨?_, s.order, s.entries⟩
      exact Nat.le_of_not_lt (by simpa [h] using hle)
  · exact refl w

theorem enqueue (w : Work) (f : Frame) : w.Keeps (w.enqueue f) :=
  of_chain rfl (fun _ => rfl) rfl rfl rfl id (.inl rfl)

theorem withdraw (w : Work) (f : Frame) : w.Keeps (w.withdraw f) := by
  refine of_chain rfl (fun _ => rfl) rfl rfl rfl id ?_
  simp only [Work.withdraw]
  cases h : w.chain.shift with
  | none => exact .inl rfl
  | some x =>
    obtain ⟨k, e⟩ := x
    by_cases hk : k = .frame f
    · exact .inr ⟨f, e, by rw [hk], by simp [hk]⟩
    · exact .inl (by simp [hk])

theorem moveWaiting (w : Work) : w.Keeps w.moveWaiting :=
  of_chain rfl (fun _ => rfl) rfl rfl rfl id (.inl rfl)

theorem openDue (w : Work) (n : Nat) : w.Keeps (w.openDue n) := trans (onNode w n _) (enqueue _ _)

theorem serveSlots (w : Work) : w.Keeps w.serveSlots :=
  trans (moveWaiting w) (foldl _ openDue _ _)

theorem queueTarget (w : Work) (n : Nat) (b : Fin 20) : w.Keeps (w.queueTarget n b) := by
  unfold Work.queueTarget; split
  · exact enqueue w _
  · exact of_chain rfl (fun _ => rfl) rfl rfl rfl id (.inl rfl)

theorem takeHold (w : Work) (n : LaneId) : w.Keeps (w.takeHold n) := by
  unfold Work.takeHold; split
  · exact refl w
  · next h =>
    refine of_chain rfl (fun _ => rfl) rfl rfl rfl (fun hn => ?_) (.inl rfl)
    refine List.Nodup.append hn (by simp) ?_
    intro b hb hb'
    simp only [List.mem_singleton] at hb'
    subst hb'
    exact h (by simpa using hb)

theorem releaseHold (w : Work) (n : LaneId) : w.Keeps (w.releaseHold n) := by
  unfold Work.releaseHold; split
  · exact of_chain rfl (fun _ => rfl) rfl rfl rfl (fun hn => hn.filter _) (.inl rfl)
  · exact refl w

theorem requestOpenAll (w : Work) : w.Keeps w.requestOpenAll := by
  unfold Work.requestOpenAll; split
  · exact of_chain rfl (fun _ => rfl) rfl rfl rfl id (.inl rfl)
  · exact refl w

theorem requestUnchecked (w : Work) : w.Keeps w.requestUnchecked :=
  of_chain rfl (fun _ => rfl) rfl rfl rfl id (.inl rfl)

theorem requestReset (w : Work) : w.Keeps w.requestReset := by
  unfold Work.requestReset; split
  · exact refl w
  · exact of_chain rfl (fun _ => rfl) rfl rfl rfl id (.inl rfl)

theorem releaseNode (w : Work) (n : Nat) (t : Option Time) : w.Keeps (w.releaseNode n t) := by
  unfold Work.releaseNode; dsimp only
  refine trans (v := { w.setNode n { w.node n with holder := .none, target := none } with wake := true })
    (trans (setNode w n _) (setWake _ true)) ?_
  split
  · split
    · exact addLinger _ _ _
    · exact setDue _ _
  · exact setDue _ _
  · split
    · exact withdraw _ _
    · exact of_chain rfl (fun _ => rfl) rfl rfl rfl id (.inl rfl)
  · exact refl _

theorem releaseStep (w : Work) (e : Env) (n : LaneId) (c : CurStep) : w.Keeps (w.releaseStep e n c) := by
  refine foldl _ (fun w p => ?_) _ w
  split
  · exact releaseNode w _ _
  · exact refl w

theorem takeNode (w : Work) (h : Holder) (n : Nat) (b : Fin 20) : w.Keeps (w.takeNode h n b) := by
  unfold Work.takeNode; dsimp only
  split
  · exact trans (setNode w n _) (enqueue _ _)
  · exact trans (setNode w n _) (unlinger _ _)
  · exact setNode w n _
  · exact trans (setNode w n _) (withdraw _ _)
  · exact trans (trans (setNode w n _) (unlinger _ _)) (enqueue _ _)
  all_goals exact setNode w n _

theorem enterResult (w : Work) (n : LaneId) (r : ResultRecord) (h : w.results.length < Config.resultCap) :
    w.Keeps (w.enterResult n r) := by
  unfold Work.enterResult; dsimp only
  have h1 : w.Keeps { w with results := w.results ++ [r], lastDelivering := n } :=
    ⟨fun s => ⟨by simp; omega, s.transmit, s.linger, s.order, s.holds, s.entries⟩, rfl, rfl, .inl rfl⟩
  split <;> split <;>
    first
      | exact trans h1 (trans (raise _ _) (raise _ _))
      | exact trans h1 (raise _ _)
      | exact h1

theorem enterClaim (w : Work) (n : LaneId) (c : CurStep) : w.Keeps (w.enterClaim n c) :=
  trans (setCur w n _) (joinClaim _ n)

theorem consume (w : Work) (n : LaneId) (c : CurStep) (p : Poster × Byte) : w.Keeps (w.consume n c p) :=
  trans (onLane w n _ rfl) (enterClaim _ n _)

theorem postToken (w : Work) (k : Fin 32) (p : Poster × Byte) : w.Keeps (w.postToken k p) := by
  unfold Work.postToken; split
  · exact refl w
  · split
    · exact consume w _ _ _
    · exact refl w
  · exact setTokens w _

theorem enterTokenWait (w : Work) (e : Env) (n : LaneId) (c : CurStep) (k : Fin 32) :
    w.Keeps (w.enterTokenWait e n c k) := by
  unfold Work.enterTokenWait; split
  · exact trans (setTokens w _) (consume _ _ _ _)
  · exact trans (setCur w n _) (startWatch _ _ _ _)

theorem enterWaits (w : Work) (e : Env) (n : LaneId) (c : CurStep) : w.Keeps (w.enterWaits e n c) := by
  unfold Work.enterWaits; split
  · exact enterTokenWait w e n c _
  · exact enterClaim w n c

theorem tryFollow (w : Work) (e : Env) (f : LaneId) : w.Keeps (w.tryFollow e f) := by
  unfold Work.tryFollow; dsimp only; split
  · split
    · refine trans (v := w.setLane f { w.lane f with run := .following, remembered := some (w.lane f).run })
        (setLane w f _ rfl) ?_
      split
      · split
        · exact enterWaits _ e _ _
        · exact refl _
      · exact refl _
    · exact refl w
  · exact refl w

theorem enterFuseWait (w : Work) (e : Env) (n : LaneId) (c : CurStep) : w.Keeps (w.enterFuseWait e n c) :=
  trans (trans (setCur w n _) (onLane _ _ _ rfl)) (tryFollow _ e _)

theorem endPair (w : Work) (n : LaneId) (r : StepRecord) : w.Keeps (w.endPair n r) := by
  unfold Work.endPair; split
  · exact onLane w _ _ (by split <;> rfl)
  · exact refl w

theorem unfreeze (w : Work) (n : LaneId) (r : StepRecord) : w.Keeps (w.unfreeze n r) := by
  unfold Work.unfreeze; split
  · exact onLane w _ _ rfl
  · exact refl w

theorem tx_afterDelivery (l : Lane) (b : Bool) : (l.afterDelivery b).tx = l.tx := by
  unfold Lane.afterDelivery; split
  · rfl
  · split
    · rfl
    · split <;> rfl

theorem raiseVerdict (w : Work) (g : LaneConfig) (n : LaneId) (v : Verdict) : w.Keeps (w.raiseVerdict g n v) := by
  unfold Work.raiseVerdict; dsimp only
  split <;> split <;>
    first
      | exact trans (raise w _) (raise _ _)
      | exact raise w _
      | exact refl w

theorem deliver (w : Work) (e : Env) (n : LaneId) (c : CurStep) (r : ResultRecord)
    (h : w.results.length < Config.resultCap) : w.Keeps (w.deliver e n c r) := by
  unfold Work.deliver; dsimp only
  refine trans (enterResult w n r h) ?_
  refine trans (v := if c.step.origin = .unit then (w.enterResult n r).send n (.done c.step.tag r.verdict)
    else w.enterResult n r) ?_ ?_
  · split
    · exact send _ _ _
    · exact refl _
  · refine trans (setCur _ n none) (trans (noteRemoval _ _ _ _ _) (trans (raiseVerdict _ _ _ _)
      (trans (onLane _ _ _ (tx_afterDelivery _ _)) (trans (endPair _ _ _) (tryFollow _ _ _)))))

theorem offer (w : Work) (e : Env) (n : LaneId) : w.Keeps (w.offer e n) := by
  unfold Work.offer; split
  · split
    · split
      · next h => exact deliver w e n _ _ h
      · exact refl w
    · exact refl w
  · exact refl w

theorem enterDeliver (w : Work) (e : Env) (n : LaneId) (c : CurStep) (r : ResultRecord) :
    w.Keeps (w.enterDeliver e n c r) := trans (setCur w n _) (offer _ e n)

theorem complete (w : Work) (e : Env) (n : LaneId) (c : CurStep) (v : Verdict) : w.Keeps (w.complete e n c v) :=
  trans (driveAll w e _ _ _) (trans (releaseStep _ e n c) (enterDeliver _ e n c _))

theorem startSettle (w : Work) (e : Env) (n : LaneId) (c : CurStep) : w.Keeps (w.startSettle e n c).1 := by
  unfold Work.startSettle; dsimp only; split
  · split
    · dsimp only; exact trans (setCur w n _) (onLane _ _ _ rfl)
    · dsimp only; exact trans (setCur w n _) (onLane _ _ _ rfl)
  · dsimp only; exact trans (setCur w n _) (onLane _ _ _ rfl)

theorem enterReadyWait (w : Work) (e : Env) (n : LaneId) (c : CurStep) : w.Keeps (w.enterReadyWait e n c) :=
  trans (setCur w n _) (startWatch _ _ _ _)

theorem sendSetup (w : Work) (n : LaneId) (c : CurStep) : w.Keeps (w.sendSetup n c) := sendAll w _ _

theorem repeatStep (w : Work) (e : Env) (n : LaneId) (c : CurStep) : w.Keeps (w.repeatStep e n c) := by
  unfold Work.repeatStep; dsimp only
  split
  · next w' _ _ h => rw [show w' = _ from (congrArg Prod.fst h).symm]; exact trans (trans (driveAll w e _ _ _) (sendSetup _ _ _)) (trans (startSettle _ _ _ _) (enterReadyWait _ _ _ _))
  · next w' h => rw [show w' = _ from (congrArg Prod.fst h).symm]; exact trans (trans (driveAll w e _ _ _) (sendSetup _ _ _)) (startSettle _ _ _ _)

theorem evaluate (w : Work) (e : Env) (n : LaneId) (c : CurStep) : w.Keeps (w.evaluate e n c) := by
  unfold Work.evaluate; split
  · exact refl w
  · dsimp only
    split
    · exact complete w e n _ _
    · exact complete w e n _ _
    · split
      · exact complete w e n _ _
      · exact repeatStep w e n _

theorem endGate (w : Work) (e : Env) (n : LaneId) (c : CurStep) : w.Keeps (w.endGate e n c) := by
  unfold Work.endGate; dsimp only
  split
  · exact trans (driveAll w e _ _ _) (trans (releaseHold _ n) (trans (setCur _ n _) (evaluate _ e n _)))
  · exact trans (driveAll w e _ _ _) (trans (releaseHold _ n) (trans (setCur _ n _) (startWatch _ e n _)))

theorem openGate (w : Work) (e : Env) (n : LaneId) (c : CurStep) : w.Keeps (w.openGate e n c) :=
  trans (driveAll w e _ _ _) (startEach _ _ _ fun _ => rfl)

theorem postGate (w : Work) (n : LaneId) (r : StepRecord) : w.Keeps (w.postGate n r) := by
  unfold Work.postGate; split
  · exact postToken w _ _
  · exact refl w

theorem beginGate (w : Work) (e : Env) (n : LaneId) (c : CurStep) : w.Keeps (w.beginGate e n c) := by
  have h : w.Keeps (((w.openGate e n c).setCur n (some (w.gateStep c))).postGate n c.step) :=
    trans (openGate w e n c) (trans (setCur _ n _) (postGate _ n _))
  unfold Work.beginGate; dsimp only; split
  · exact trans h (endGate _ e n _)
  · exact h

theorem endSourceDelay (w : Work) (e : Env) (n : LaneId) (c : CurStep) : w.Keeps (w.endSourceDelay e n c) := by
  unfold Work.endSourceDelay; dsimp only; split
  · refine trans (takeHold w n) ?_
    split
    · exact beginGate _ e n c
    · exact refl _
  · exact beginGate w e n c

theorem openSource (w : Work) (e : Env) (n : LaneId) (c : CurStep) : w.Keeps (w.openSource e n c) :=
  trans (setCur w n _) (trans (driveAll _ e _ _ _) (startEach _ _ _ fun _ => rfl))

theorem beginSource (w : Work) (e : Env) (n : LaneId) (c : CurStep) : w.Keeps (w.beginSource e n c) := by
  unfold Work.beginSource; dsimp only; split
  · exact trans (openSource w e n c) (endSourceDelay _ e n _)
  · exact openSource w e n c

theorem endSettle (w : Work) (e : Env) (n : LaneId) (c : CurStep) (k : Nat) (b : Bool) :
    w.Keeps (w.endSettle e n c k b) := by
  unfold Work.endSettle; dsimp only; split
  · exact beginSource w e n _
  · exact enterReadyWait w e n _

theorem endSwitch (w : Work) (e : Env) (n : LaneId) (c : CurStep) : w.Keeps (w.endSwitch e n c) := by
  unfold Work.endSwitch; split
  · next w' _ _ h => rw [show w' = _ from (congrArg Prod.fst h).symm]; exact trans (startSettle _ _ _ _) (endSettle _ _ _ _ _ _)
  · next w' h => rw [show w' = _ from (congrArg Prod.fst h).symm]; exact startSettle _ _ _ _

theorem checkSwitch (w : Work) (e : Env) (n : LaneId) : w.Keeps (w.checkSwitch e n) := by
  unfold Work.checkSwitch; split
  · split
    · exact endSwitch w e n _
    · exact refl w
  · exact refl w

theorem placeMarks (w : Work) (a : LaneId) (ns : List Nat) : w.Keeps (w.placeMarks a ns).1 := by
  refine foldlPair _ (fun p n => ?_) ns (w, false)
  dsimp only
  split
  · exact setNode _ _ _
  · split
    · exact refl _
    · split
      · exact setNode _ _ _
      · exact refl _

theorem grantNodes (w : Work) (a : LaneId) (c : CurStep) : w.Keeps (w.grantNodes a c) := by
  have h : w.Keeps ((c.nodes.foldl (fun (w : Work) p => w.takeNode (.lane a) p.1 p.2)
      { w with wake := false, freed := false }).leaveClaim a) :=
    trans (setMarks w false false) (trans (foldl _ (fun w p => takeNode w _ p.1 p.2) c.nodes _) (leaveClaim _ a))
  exact trans h (of_nodes rfl (fun _ => rfl) rfl fun s => ⟨s.linger, s.order, s.entries⟩)

theorem takeClaim (w : Work) (e : Env) (a : LaneId) (c : CurStep) : w.Keeps (w.takeClaim e a c).1 := by
  have h : w.Keeps (if (w.grantNodes a c).freed then (w.grantNodes a c).serveSlots else w.grantNodes a c) := by
    split
    · exact trans (grantNodes w a c) (serveSlots _)
    · exact grantNodes w a c
  exact trans (trans h (setMarks _ false false))
    (trans (setCur _ a _) (trans (sendSetup _ a c) (checkSwitch _ e a)))

theorem tryClaim (w : Work) (e : Env) (a : LaneId) : w.Keeps (w.tryClaim e a).1 := by
  unfold Work.tryClaim; split
  · split
    · dsimp only; split
      · exact placeMarks w a _
      · split
        · exact refl w
        · exact takeClaim w e a _
    · exact refl w
  · exact refl w

theorem pass (w : Work) (e : Env) : w.Keeps (w.pass e).1 :=
  by
  unfold Work.pass
  exact foldlPair (fun p a => ((p.1.tryClaim e a).1, p.2 || (p.1.tryClaim e a).2)) (fun p a => tryClaim p.1 e a) _
    (w, false)

theorem arbitrate (e : Env) (k : Nat) (w : Work) : w.Keeps (w.arbitrate e k) := by
  induction k generalizing w with
  | zero => exact refl w
  | succ k ih =>
    unfold Work.arbitrate
    have hp := pass w e
    split
    · next v h => rw [h] at hp; exact trans hp (ih v)
    · next v h => rw [h] at hp; exact hp

theorem finish (w : Work) (e : Env) : w.Keeps (w.finish e) := by
  unfold Work.finish; split
  · refine trans (setMarks w false false) (trans ?_ (setMarks _ false false))
    split
    · exact trans (serveSlots _) (arbitrate e _ _)
    · exact trans (arbitrate e _ _) (serveSlots _)
  · exact refl w

theorem reportQuiet (w : Work) (e : Env) : w.Keeps (w.reportQuiet e) := by
  unfold Work.reportQuiet; split
  · refine foldl _ (fun w n => ?_) _ w
    split
    · split
      · exact beginGate w e n _
      · exact refl w
    · exact refl w
  · exact refl w

theorem finishQuiet (w : Work) (e : Env) : w.Keeps (w.finishQuiet e) :=
  trans (finish w e) (trans (reportQuiet _ e) (finish _ e))

theorem abortStep (w : Work) (e : Env) (n : LaneId) (c : CurStep) : w.Keeps (w.abortStep e n c) :=
  trans (sendAll w _ _) (trans (driveAll _ e _ _ _) (trans (stopStep _ n _) (trans (releaseHold _ n)
    (trans (releaseStep _ e n c) (setCur _ n _)))))

theorem keepStep (w : Work) (n : LaneId) (c : CurStep) (p : ResumePoint) : w.Keeps (w.keepStep n c p) :=
  trans (stopAll w n) (trans (setCur _ n _) (leaveClaim _ n))

theorem abortLane (w : Work) (e : Env) (n : LaneId) : w.Keeps (w.abortLane e n) := by
  unfold Work.abortLane; dsimp only; split
  · split
    · exact refl w
    · exact onLane w n _ rfl
  · split
    · exact trans (abortStep w e n _) (onLane _ n _ rfl)
    · split
      · exact onLane w n (fun l => { l with pendingHold := true }) rfl
      · exact trans (keepStep w n _ _) (trans (unfreeze _ n _) (onLane _ n _ rfl))

theorem safetyAbort (w : Work) (e : Env) (c : Cause) : w.Keeps (w.safetyAbort e c) :=
  trans (raise w c) (trans (foldl _ (fun w n => abortLane w e n) _ _) (trans (requestOpenAll _)
    (foldl _ (fun w n => offer w e n) _ _)))

theorem startStep (w : Work) (e : Env) (n : LaneId) (c : CurStep) : w.Keeps (w.startStep e n c) := by
  unfold Work.startStep; split
  · exact enterFuseWait w e n c
  · exact enterWaits w e n c

theorem admitHead (w : Work) (e : Env) (n : LaneId) : w.Keeps (w.admitHead e n) := by
  unfold Work.admitHead; split
  · exact refl w
  · dsimp only
    split
    · exact trans (onLane w n _ rfl) (startStep _ e n _)
    · exact trans (onLane w n _ rfl) (enterDeliver _ e n _ _)

theorem append (w : Work) (n : LaneId) (r : StepRecord) : w.Keeps (w.append n r) := onLane w n _ rfl

theorem resumeStep (w : Work) (e : Env) (n : LaneId) (c : CurStep) : w.Keeps (w.resumeStep e n c) := by
  unfold Work.resumeStep; split
  · exact enterFuseWait w e n c
  · exact enterWaits w e n c
  · exact enterClaim w n c
  · exact refl w

theorem goLane (w : Work) (e : Env) (n : LaneId) : w.Keeps (w.goLane e n) := by
  unfold Work.goLane; dsimp only
  have hset : ∀ l : Lane, l.tx = (w.lane n).tx →
      w.Keeps (match (w.lane n).cur with
        | some c => (w.setLane n l).resumeStep e n c
        | none => (w.setLane n l).tryFollow e n) := by
    intro l hl
    split
    · exact trans (setLane w n l hl) (resumeStep _ e n _)
    · exact trans (setLane w n l hl) (tryFollow _ e n)
  split
  · exact hset _ rfl
  · exact hset _ rfl
  · exact hset _ rfl
  · exact hset _ rfl
  · exact refl w
  · exact refl w
  · split
    · exact setLane w n _ rfl
    · exact refl w

theorem pauseLane (w : Work) (n : LaneId) : w.Keeps (w.pauseLane n) := by
  unfold Work.pauseLane; dsimp only; split
  · split
    · exact onLane w n _ rfl
    · split
      · exact trans (keepStep w n _ _) (trans (unfreeze _ n _) (onLane _ n _ rfl))
      · exact trans (keepStep w n _ _) (onLane _ n _ rfl)
      · exact trans (keepStep w n _ _) (onLane _ n _ rfl)
      · exact onLane w n _ rfl
      · exact onLane w n _ rfl
      · exact setLane w n _ rfl
  · split
    · exact setLane w n _ rfl
    · exact refl w
  · exact refl w

theorem cancelLane (w : Work) (e : Env) (n : LaneId) : w.Keeps (w.cancelLane e n).1 := by
  unfold Work.cancelLane; dsimp only
  refine trans (onLane w n (fun l => { l with queue := [] }) rfl) ?_
  split
  · exact noteRemoval _ e n _ _
  · split
    · exact noteRemoval _ e n _ _
    · split
      · exact trans (noteRemoval _ e n _ _) (trans (abortStep _ e n _) (offer _ e n))
      · refine trans (trans (stopAll _ n) (leaveClaim _ n)) (trans ?_ (trans (setCur _ n none)
          (trans (noteRemoval _ e n _ _) (trans (endPair _ n _) (tryFollow _ e n)))))
        split
        · exact setWake _ true
        · exact refl _

theorem hunt (w : Work) (n : LaneId) : w.Keeps (w.hunt n) := onLane w n _ rfl

theorem discardFrame (w : Work) (n : LaneId) : w.Keeps (w.discardFrame n) := trans (hunt w n) (raise _ _)

theorem takeReady (w : Work) (e : Env) (l : LaneId) (t : BitVec 16) (a : Byte) :
    w.Keeps (w.takeReady e l t a) := by
  unfold Work.takeReady; dsimp only; split
  · exact raise w _
  · split
    · split
      · exact trans (setCur w _ _) (trans (onLane _ _ _ rfl) (beginSource _ e _ _))
      · exact setCur w _ _
    · exact raise w _

theorem takeResult (w : Work) (e : Env) (l : LaneId) (t : BitVec 16) (a : Byte) (r : Reading) :
    w.Keeps (w.takeResult e l t a r) := by
  unfold Work.takeResult; dsimp only; split
  · exact raise w _
  · split
    · exact setCur w _ _
    · split
      · split
        · exact trans (setCur w _ _) (trans (onLane _ _ _ rfl) (evaluate _ e _ _))
        · exact setCur w _ _
      · exact raise w _

theorem handOut (w : Work) (e : Env) : w.Keeps (w.handOut e) := foldl _ (fun w n => offer w e n) _ w

theorem holdNode (w : Work) (n : Nat) (b : Fin 20) : w.Keeps (w.holdNode n b).1 := by
  unfold Work.holdNode; dsimp only; split
  · exact refl w
  · exact refl w
  · exact refl w
  · split
    · exact refl w
    · exact takeNode w _ n b

end Keeping

end Sys2Proof.Machine
end

