-- ==== Sys2Proof/Laws/Finish.lean ====
section
/-! SUPPORT. The end of an event: it leaves a rested part as it stands, and with no lane in the claim order list it
hands out frame queue slots alone; with nothing to hand out it changes nothing. -/

namespace Sys2Proof.Machine

/-! ### Arbiter -/

theorem Work.tryClaim_unclaimed {w : Work} (h : w.nodes.order = []) (e : Env) (a : LaneId) :
    w.tryClaim e a = (w, false) := by
  unfold Work.tryClaim
  split <;> simp [h]

theorem Work.pass_unclaimed {w : Work} (h : w.nodes.order = []) (e : Env) : w.pass e = (w, false) := by
  simp [Work.pass, lanesAfter, Work.tryClaim_unclaimed h]

theorem Work.arbitrate_unclaimed {w : Work} (h : w.nodes.order = []) (e : Env) (k : Nat) :
    w.arbitrate e k = w := by
  cases k with
  | zero => rfl
  | succ k => simp [Work.arbitrate, Work.pass_unclaimed h]

/-! ### Slots -/

theorem Work.foldl_openDue_order (ns : List Nat) (w : Work) :
    (ns.foldl Work.openDue w).nodes.order = w.nodes.order := by
  induction ns generalizing w with
  | nil => rfl
  | cons n ns ih => rw [List.foldl_cons, ih]; rfl

@[simp] theorem Work.serveSlots_order (w : Work) : w.serveSlots.nodes.order = w.nodes.order :=
  Work.foldl_openDue_order _ _

theorem Work.moveWaiting_none {w : Work} (h : w.chain.waiting = []) : w.moveWaiting = w := by
  obtain ⟨_, _, c, _, _, _, _, _, _, _⟩ := w
  obtain ⟨_, _, q, _, _, _, _, _, _⟩ := c
  simp only at h
  subst h
  simp [Work.moveWaiting]

/-- With no waiting target and no due node that is CLOSED, freed slots stay free (R45). -/
theorem Work.serveSlots_none {w : Work} (h : w.chain.waiting = []) (hd : w.dueNodes = []) : w.serveSlots = w := by
  simp [Work.serveSlots, Work.moveWaiting_none h, Work.dueProcessing, hd]

/-! ### The end of an event -/

theorem Work.finish_rested {w : Work} (h : w.wake = false) (e : Env) : w.finish e = w := by
  simp [Work.finish, h]

/-- With no lane in the claim order list, the end of an event serves the frame queue's slots alone. -/
theorem Work.finish_unclaimed {w : Work} (ho : w.nodes.order = []) (hw : w.wake = true) (e : Env) :
    w.finish e =
      { ({ w with wake := false, freed := false }).serveSlots with wake := false, freed := false } := by
  have hs : ({ w with wake := false, freed := false }).serveSlots.nodes.order = [] := by simpa using ho
  have hp : ({ w with wake := false, freed := false }).arbitrate e passBound
      = { w with wake := false, freed := false } :=
    Work.arbitrate_unclaimed (w := { w with wake := false, freed := false }) ho e _
  by_cases hf : w.freed = true
  · simp [Work.finish, hw, hf, Work.arbitrate_unclaimed hs]
  · simp [Work.finish, hw, hf, hp]

/-- With nothing to hand out, the end of an event changes nothing but the marks of its triggers. -/
theorem Work.finish_calm {w : Work} (ho : w.nodes.order = []) (hq : w.chain.waiting = []) (hd : w.dueNodes = [])
    (hf : w.freed = true → w.wake = true) (e : Env) : w.finish e = { w with wake := false, freed := false } := by
  by_cases hw : w.wake = true
  · rw [Work.finish_unclaimed ho hw, Work.serveSlots_none (w := { w with wake := false, freed := false }) hq hd]
  · have hf : w.freed = false := by
      cases h : w.freed with
      | false => rfl
      | true => exact absurd (hf h) hw
    have hw : w.wake = false := by simpa using hw
    rw [Work.finish_rested hw]
    cases w; simp_all

/-- With no quiet hold, nobody waits for the report of quiet. -/
theorem Work.reportQuiet_none {w : Work} (h : w.chain.holds = []) (e : Env) : w.reportQuiet e = w := by
  simp [Work.reportQuiet, h]

theorem Work.finishQuiet_calm {w : Work} (ho : w.nodes.order = []) (hq : w.chain.waiting = [])
    (hd : w.dueNodes = []) (hf : w.freed = true → w.wake = true) (hh : w.chain.holds = []) (e : Env) :
    w.finishQuiet e = { w with wake := false, freed := false } := by
  unfold Work.finishQuiet
  rw [Work.finish_calm ho hq hd hf]
  rw [Work.reportQuiet_none (w := { w with wake := false, freed := false }) hh]
  exact Work.finish_rested rfl e

end Sys2Proof.Machine
end

