-- ==== Sys2Proof/Laws/Spelled.lean ====
section
/-! SUPPORT. What the small functions of the model say, once each: a region's window, the blocked condition, the release
of a step node by node, and the bytes of HSDO. -/

namespace Sys2Proof.Machine

/-! ### Conditions -/

theorem Region.holds_iff (r : Region) (l : Nat) :
    r.holds l = true ↔ r.valid = true ∧ r.start ≤ l ∧ l < r.start + r.size := by
  simp [Region.holds, and_assoc]

theorem Work.blockedFor_iff (w : Work) (a : LaneId) (n : Nat) :
    w.blockedFor a n = true ↔
      (w.node n).holder = .manual ∨ (∃ b, (w.node n).holder = .lane b ∧ b ≠ a) ∨
        ∃ b, (w.node n).waiter = some b ∧ b ≠ a := by
  rcases h : w.node n with ⟨_, _, holder, _, _, waiter⟩
  cases holder <;> cases waiter <;> simp [Work.blockedFor, h]

/-! ### The release of a step -/

@[simp] theorem Work.releaseStep_nil (w : Work) (e : Env) (a : LaneId) (c : CurStep) :
    w.releaseStep e a { c with nodes := [] } = w := rfl

theorem Work.releaseStep_cons (w : Work) (e : Env) (a : LaneId) (c : CurStep) (p : Nat × Fin 20)
    (ps : List (Nat × Fin 20)) :
    w.releaseStep e a { c with nodes := p :: ps } =
      (if (w.node p.1).holder = .lane a then w.releaseNode p.1 (lingerUntil e a c.step) else w).releaseStep e a
        { c with nodes := ps } := rfl

/-! ### HSDO -/

@[simp] theorem Port.hsdo_none (b : Bool) (start k : Nat) : (⟨none, b⟩ : Port).hsdo start k = hsdoFiller := rfl

@[simp] theorem Port.hsdo_some (r : Reply) (b : Bool) (start k : Nat) :
    (⟨some r, b⟩ : Port).hsdo start k = r.hsdo start k := rfl

theorem Reply.hsdo_before (r : Reply) {start k : Nat} (h : k < start) : r.hsdo start k = hsdoFiller := if_pos h

theorem Reply.hsdo_frame (r : Reply) (start i : Nat) : r.hsdo start (start + i) = r.frame.getD i hsdoFiller := by
  simp [Reply.hsdo]

theorem Reply.hsdo_after (r : Reply) {start k : Nat} (h : start + r.frame.length ≤ k) :
    r.hsdo start k = hsdoFiller := by
  have : r.frame.length ≤ k - start := by omega
  simp [Reply.hsdo, List.getElem?_eq_none this]

theorem Reply.frame_length (r : Reply) : r.frame.length = 4 + r.body.length := by
  simp [Reply.frame, Bytes.of16]; omega

end Sys2Proof.Machine
end

