-- ==== Sys2Proof/Tests/Slice0.lean ====
section
/-! SUPPORT. Tests: ill-formed commands that WellFormed refuses, bytes of section 11.6 written out and decoded, single
commands against the spec's examples and tables, and for each statement with hypotheses a concrete state that meets
them. -/

namespace Sys2Proof.Tests

open Sys2Proof.Machine

/-! ### A small part to test on -/

/-- The step of most tests: nodes 10 on HI and 11 on LO. -/
def stepA : StepRecord :=
  { origin := .host, tag := 7, flags := ⟨false, false, false, false, false⟩, function := 1, range := 2, stimulus := 3
    connections := [⟨10, .hi, .leader⟩, ⟨11, .lo, .leader⟩], settle := 600, minSettle := 0, sourceDelay := 10
    gateWidth := 20, watch := 5000, low := none, high := none, followerLow := none, followerHigh := none
    repeats := 1, waitToken := none, postToken := none }

/-- The bytes of `stepA` by the step record table of section 11.6. -/
def bytesA : List Byte :=
  [0, 7, 0, 1, 2, 0, 0, 3, 2, 0x58, 0, 0, 0, 10, 0, 20, 0x13, 0x88, 0] ++ List.replicate 12 0 ++ [1, 0, 0, 0, 2]
    ++ [0, 10, 0, 0, 11, 1]

/-- A READY chain, a SEATED fixture, an identity region and lane 0 enabled, 1,000 µs after hard reset. -/
def ready : State :=
  { State.reset with
    fix :=
      { Fixed.reset with
        regions := Fixed.reset.regions.set 0 ⟨true, 0, 4096, 0⟩
        lanes := Fixed.reset.lanes.set 0 { LaneConfig.reset with enabled := true } }
    clock := ⟨1000, 0⟩
    inputs := { State.reset.inputs with seatedPin := true, seated := ⟨true, true, false⟩ }
    work := { Work.reset with chain := { Chain.reset with state := .ready, requests := [] } } }

/-- `stepA` as the current step in a phase. -/
def cur (p : StepPhase) : CurStep := { CurStep.admitted stepA [(10, 0), (11, 1)] with phase := p }

/-- A RUNNING lane with a current step. -/
def working (c : CurStep) : Lane := { Lane.reset with run := .running, cur := some c }

/-- A state with one lane replaced. -/
def withLane (s : State) (n : LaneId) (l : Lane) : State := { s with work := s.work.setLane n l }

/-- A state with one node entry replaced. -/
def withNode (s : State) (n : Nat) (x : NodeEntry) : State := { s with work := s.work.setNode n x }

/-- A state with its relay chain engine replaced. -/
def withChain (s : State) (c : Chain) : State := { s with work := { s.work with chain := c } }

/-- `ready` with lane 0 at a step in a phase. -/
def at' (p : StepPhase) : State := withLane ready 0 (working (cur p))

/-- A FUSED step with a wait token. -/
def stepF : StepRecord :=
  { stepA with
    flags := ⟨true, false, false, false, false⟩, waitToken := some 31
    connections := [⟨10, .hi, .leader⟩, ⟨11, .lo, .leader⟩, ⟨12, .hi, .follower⟩] }

/-- The FUSED step in RESULT_WAIT, with the leader's reading or without. -/
def curF (first : Option Reading) : CurStep :=
  { CurStep.admitted stepF [(10, 0), (11, 1), (12, 5)] with
    phase := .resultWait, leader := { SideState.start with reading := first } }

/-- The chain of `ready`. -/
def idleChain : Chain := { Chain.reset with state := .ready, requests := [] }

/-- The work that a command leaves. -/
def after (i : Instr) (s : State) : Option Work :=
  match exec i s with
  | .next t => some t.work
  | _ => none

/-- The reply that a command leaves. -/
def reply (i : Instr) (s : State) : Option (ReplyCode × List Byte) :=
  (after i s).bind fun w => w.port.reply.map fun r => (r.code, r.body)

/-- A counting channel whose expiry is to be taken. -/
def run : Channel := ⟨true, 1, false, some 900, false, 0, 0, true⟩

/-! ### WellFormed refuses -/

theorem test_wf_postStep_short : (Instr.postStep 0 [1, 2, 3]).wellFormed = false := by decide

theorem test_wf_unknownRequestType_listed : (Instr.unknownRequestType 0x12 []).wellFormed = false := by decide

theorem test_wf_hostRequestAbandoned_complete : (Instr.hostRequestAbandoned [0x12, 0, 0]).wellFormed = false := by
  decide

theorem test_wf_post_count : (Instr.post 0 (List.replicate 36 3)).wellFormed = false := by decide

theorem test_wf_result_flag : (Instr.result 0 0 0 0 3).wellFormed = false := by decide

theorem test_wf_linkFrameDiscarded_good : (Instr.linkFrameDiscarded 0 0x03 []).wellFormed = false := by decide

theorem test_wf_good_commands :
    (Instr.postStep 0 bytesA).wellFormed = true ∧ (Instr.unknownRequestType 0x15 [1]).wellFormed = true ∧
      (Instr.hostRequestAbandoned [0x03, 0]).wellFormed = true ∧ (Instr.post 3 bytesA).wellFormed = true ∧
      (Instr.result 0 7 0 0x800000 2).wellFormed = true ∧ (Instr.linkFrameDiscarded 1 0x09 []).wellFormed = true := by
  decide

/-! ### Bytes of section 11.6, written out -/

theorem test_bytes_step_record : parseRecord .host bytesA = some stepA ∧ encodeRecord stepA = bytesA := by decide

theorem test_bytes_post_step :
    decodeTransaction ([0x01, 0, 43, 2] ++ bytesA) = .postStep 2 bytesA := by decide

theorem test_bytes_lane_requests :
    decodeTransaction [0x02, 0, 1, 3] = .cancelLane 3 ∧ decodeTransaction [0x03, 0, 1, 0x05] = .go 5 ∧
      decodeTransaction [0x04, 0, 1, 0x0A] = .pause 10 ∧ decodeTransaction [0x06, 0, 1, 1] = .readLane 1 ∧
      decodeTransaction [0x11, 0, 1, 0x21] = .lineWrite 0x21 := by decide

theorem test_bytes_config_lane :
    decodeTransaction [0x05, 0, 13, 1, 1, 0, 1, 0x80, 0xE8, 0xFF, 0xFA, 0x24, 0x07, 0xD0, 8, 0]
      = .configLane 1 1 0 1 33000 (BitVec.ofInt 24 (-1500)) 2000 8 0 := by decide

theorem test_bytes_fixture_requests :
    decodeTransaction [0x07, 0, 7, 2, 0xFD, 0xC8, 0x02, 0x08, 0x0F, 0xF8] = .loadRegion 2 64968 520 4088 ∧
      decodeTransaction [0x08, 0, 1, 7] = .readRegion 7 ∧
      decodeTransaction [0x09, 0, 6, 0x0F, 0x00, 0x01, 0x90, 0x00, 0xC8] = .fixtureConfig 3840 400 200 ∧
      decodeTransaction [0x0A, 0, 3, 0x0F, 0xFF, 19] = .setNode 4095 19 ∧
      decodeTransaction [0x0B, 0, 2, 1, 2] = .freeNode 258 ∧ decodeTransaction [0x0C, 0, 2, 1, 2] = .readNode 258 := by
  decide

theorem test_bytes_data_requests :
    decodeTransaction [0x0D, 0, 1, 16] = .takeResults 16 ∧ decodeTransaction [0x0E, 0, 0] = .ackNotice ∧
      decodeTransaction [0x0F, 0, 1, 0x3E] = .setMask 0x3E ∧ decodeTransaction [0x10, 0, 3, 31, 0, 9] = .tokenPost 31 9 ∧
      decodeTransaction [0x10, 0, 3, 31, 1, 9] = .tokenClear 31 9 ∧
      decodeTransaction [0x10, 0, 3, 31, 2, 9] = .tokenRead 31 9 ∧
      decodeTransaction [0x10, 0, 3, 31, 3, 9] = .unknownRequestType 0x10 [31, 3, 9] := by decide

theorem test_bytes_part_requests :
    decodeTransaction [0x12, 0, 0] = .abortAll ∧ decodeTransaction [0x13, 0, 0, 0x55] = .chainReset ∧
      decodeTransaction [0x14, 0, 0] = .clear ∧ decodeTransaction [0x15, 0, 1, 4] = .unknownRequestType 0x15 [4] ∧
      decodeTransaction [0x12, 0, 1] = .hostRequestAbandoned [0x12, 0, 1] := by decide

theorem test_bytes_unit_frames :
    decodeFrame 2 0x01 bytesA = .post 2 bytesA ∧ decodeFrame 2 0x02 [] = .unitCancelLane 2 ∧
      decodeFrame 2 0x03 [] = .unitPause 2 ∧ decodeFrame 2 0x04 [] = .unitGo 2 ∧
      decodeFrame 2 0x05 [0x12, 0x34, 1] = .ready 2 0x1234 1 ∧
      decodeFrame 2 0x06 [0x12, 0x34, 1, 0xFF, 0xFF, 0xFB, 0] = .result 2 0x1234 1 0xFFFFFB 0 ∧
      decodeFrame 2 0x07 [31, 9] = .unitToken 2 31 9 ∧ decodeFrame 2 0x08 [] = .linkFrameDiscarded 2 0x08 [] := by decide

theorem test_bytes_chain_frames :
    (Frame.close 0xABC 19).word = 0xABC66000 ∧ (Frame.opn 0xABC).word = 0xABC80000 ∧ openAllWord = 0x000C0000 := by
  decide

theorem test_bytes_unit_messages :
    (UnitMessage.setup 0x1234 2 1 3 0x0A0B0C).frame = [0x7E, 0x83, 8, 0x12, 0x34, 2, 1, 3, 0x0A, 0x0B, 0x0C] ∧
      (UnitMessage.refuse 0x1234 2).frame = [0x7E, 0x82, 3, 0x12, 0x34, 2] ∧
      (UnitMessage.done 0x1234 .tokenTimeout).frame = [0x7E, 0x85, 3, 0x12, 0x34, 3] := by decide

/-! ### The spec's tables -/

/-- The table of R159. -/
theorem test_quotient_table :
    roundQuotient (1 * 16384) = 1 ∧ roundQuotient (-1 * 16384) = -1 ∧ roundQuotient (3 * 16384) = 2 ∧
      roundQuotient (-5 * 16384) = -3 ∧ roundQuotient (1 * 16383) = 0 ∧ roundQuotient (77 * 32768) = 77 ∧
      roundQuotient (77 * 0) = 0 := by decide

/-- The table of section 9.3, with gain and offset as named. -/
theorem test_correction_cases :
    let f := fun (g : Nat) (o : Int) (low high : Option Int) (r : Reading) =>
      evaluateReading { LaneConfig.reset with gain := g, offset := o } low high r
    f 33000 (-1500) (some 1200000) (some 1260000) ⟨1234567, .ok⟩ = (1241808, false, .pass) ∧
      f 16384 0 none none ⟨-5, .ok⟩ = (-3, false, .pass) ∧
      f 40000 0 none none ⟨8000000, .ok⟩ = (8388607, true, .pass) ∧
      f 32768 1 none (some 8388607) ⟨8388607, .ok⟩ = (8388607, true, .pass) ∧
      f 32768 0 (some (-8388607)) none ⟨-8388608, .ok⟩ = (-8388607, true, .pass) ∧
      f 0 (-2000) (some (-1000)) (some 1000) ⟨5000000, .ok⟩ = (-2000, false, .fail) ∧
      f 32768 0 none (some 8000000) ⟨0, .overrange⟩ = (8388607, true, .fail) ∧
      f 32768 0 none none ⟨-1, .overrange⟩ = (-8388607, true, .pass) ∧
      f 32768 0 none none ⟨77, .fault⟩ = (-8388608, false, .unitFault) := by decide

/-- The products of R104. -/
theorem test_settle_of_repeats :
    settleOf 12000 1 = 24000 ∧ settleOf 12000 2 = 48000 ∧ settleOf 12000 3 = 65535 ∧ settleOf 0 3 = 0 := by decide

/-- The worked values of R6. -/
theorem test_load_region_rounds :
    reply (.loadRegion 7 0 4100 4095) ready = some (.ok, []) ∧
      reply (.loadRegion 7 0 4104 0) ready = some (.regionRange, []) ∧
      reply (.loadRegion 7 65024 520 0) ready = some (.regionRange, []) ∧
      reply (.loadRegion 7 65530 6 4096) ready = some (.ok, []) := by decide

/-- The COARSE alignment of R112: from 1,000 µs the next count tick is 1,024. -/
theorem test_aligned_start :
    alignedStart true ⟨1000, 0⟩ = 1024 ∧ alignedStart true ⟨1024, 0⟩ = 1024 ∧ alignedStart true ⟨1024, 1⟩ = 1088 ∧
      alignedStart false ⟨1000, 0⟩ = 1000 ∧ alignedStart false ⟨0xFFFFFFFF, 1⟩ = 0 := by decide

/-! ### Single commands -/

theorem test_reset_reads : reply (.readLane 3) State.reset
    = some (.ok, [0, 0xFF, 0, 0xFF, 0, 0, 0xFF, 0, 0, 0, 0, 0, 0, 0, 0, 0, 0, 3]) := by decide

theorem test_read_node_reset : reply (.readNode 0x0FFF) State.reset
    = some (.ok, [0x0F, 0xFF, 0, 0xFF, 0xFF, 0xFF, 0xFF, 0, 0, 0, 0xFF, 0xFF, 0xFF, 0xFF]) := by decide

theorem test_post_then_queue :
    (after (.postStep 0 bytesA) ready).map (fun w => (w.lane 0).queue) = some [stepA] := by decide

theorem test_unit_post_accepts :
    (after (.post 1 bytesA) ready).map (fun w => (w.lane 1).tx) = some [.accept 7] := by decide

/-- R86: UNSEATED comes before the other refusals; lane 1 is not enabled. -/
theorem test_go_refusals :
    reply (.go 1) State.reset = some (.unseated, []) ∧ reply (.go 3) ready = some (.disabled, []) ∧
      reply (.go 1) ready = some (.ok, []) := by decide

/-- R22, R94: the admission of a step on free nodes takes both and sends SETUP. -/
theorem test_admission_switches :
    (after (.admission 0) (withLane ready 0 { Lane.reset with run := .running, queue := [stepA] })).map
        (fun w => ((w.lane 0).curPhase, w.chain.queue, (w.lane 0).tx))
      = some (.switch, [.close 10 0, .close 11 1], [.setup 7 0 1 2 3]) := by decide

/-- R74, R79: logical node 5,000 lies outside the one region. -/
theorem test_admission_rejects :
    (after (.admission 0)
        (withLane ready 0
          { Lane.reset with
            run := .running
            queue := [{ stepA with connections := [⟨10, .hi, .leader⟩, ⟨5000, .lo, .leader⟩] }] })).map
        (fun w => w.results.map fun r => (r.verdict, r.error, r.attempts))
      = some [(.rejected, some .unmapped, 0)] := by decide

theorem test_ready_begins_source :
    (after (.ready 0 7 0) (at' .readyWait)).map (fun w => ((w.lane 0).curPhase, (w.lane 0).src, (w.lane 0).c1.count))
      = some (.source, true, 10) := by decide

theorem test_result_for_other_attempt_is_stale :
    (after (.result 0 7 1 5 0) (at' .resultWait)).map (fun w => (w.notices[1], w.results)) = some (8, []) := by decide

theorem test_result_delivers :
    (after (.result 0 7 0 5 0) (at' .resultWait)).map (fun w => w.results.map fun r => (r.verdict, r.value, r.raw))
      = some [(.pass, 5, some 5)] := by decide

theorem test_abort_all_holds :
    (after .abortAll (at' .claim)).map (fun w => ((w.lane 0).run, (w.lane 0).cur.bind (·.resume), w.notices[0]))
      = some (.held, some .claim, 4) := by decide

theorem test_set_node_queues_close :
    (after (.setNode 4095 19) ready).map (fun w => (w.chain.queue, (w.node 4095).holder))
      = some ([.close 4095 19], .manual) := by decide

theorem test_token_post_and_overpost :
    reply (.tokenPost 31 9) ready = some (.ok, [1, 0, 9, 0]) ∧
      reply (.tokenPost 31 9)
          { ready with work := { ready.work with tokens := ready.work.tokens.set 31 (some (.unit 2, 5)) } }
        = some (.overposted, [1, 3, 5, 0]) := by decide

theorem test_ack_notice_none : reply .ackNotice ready = some (.none, [0]) := by decide

theorem test_clear_sends_cancel :
    (after .clear (at' .gate)).map (fun w => ((w.lane 0).tx, (w.lane 0).cur, w.chain.requests))
      = some ([UnitMessage.cancel 7 0], none, [⟨OpenAllKind.checked, true⟩]) := by decide

theorem test_chain_reset_awaits :
    (after .chainReset State.reset).map (·.port) = some ⟨none, true⟩ ∧
      reply .chainReset ready = some (.ok, []) := by decide

/-- R38, R27: lane 0's pass finds the node that FREE_NODE frees due and reuses it by row 3, and no OPEN frame is queued
in between. -/
theorem test_free_node_before_claim :
    let s := withNode (withNode (at' .claim) 10 ⟨.closed, some 0, .manual, none, false, some 0⟩) 11 .reset
    (after (.freeNode 10) { s with work := { s.work with nodes := { s.work.nodes with order := [0] } } }).map
        (fun w => (w.node 10, w.chain.queue))
      = some (⟨.closed, some 0, .lane 0, none, false, none⟩, [.close 11 1]) := by decide

/-- R51: a hold emptied by CLEAR keeps the head frame to the next tick. -/
theorem test_clear_releases_holds :
    (after .clear (withChain ready { idleChain with holds := [0] })).map (fun w => (w.chain.holds, w.chain.holdOff))
      = some ([], true) := by decide

/-- R61: asked for at the end of an OPEN_ALL's shift, before that end is taken, the next begins at that end. -/
theorem test_chain_reset_behind_shift :
    (after .chainReset
        (withChain ready { idleChain with state := .fault, shift := some ⟨.openAll .unchecked, 1000⟩ })).map
        (·.chain.requests)
      = some [⟨.chainReset, false⟩] := by decide

/-- R81: lane 1 takes nodes in the pass that the removal of lane 0's step in CLAIM starts, with no mark cleared. -/
theorem test_cancel_in_claim_starts_pass :
    let s := withLane (at' .claim) 1 (working { cur .claim with nodes := [(12, 5), (13, 6)] })
    (after (.cancelLane 0) { s with work := { s.work with nodes := { s.work.nodes with order := [0, 1] } } }).map
        (fun w => (w.lane 1).curPhase)
      = some .switch := by decide

/-- R194: two bytes within 20 µs of each other, the second 7Eh, make a frame of length 0 only at its second byte. -/
theorem test_frame_bytes_come :
    (({ Lane.reset with rx := .inFrame [] 999 } : Lane).clockLink (some ⟨0, 4, true⟩)).rx = .inFrame [4] 0 ∧
      (({ Lane.reset with rx := .inFrame [4] 1000 } : Lane).clockLink (some ⟨0, 0, true⟩)).arrived
        = some ⟨0, 0, true⟩ ∧
      (Receiver.inFrame [4] 0).message 2 = none ∧ (Receiver.inFrame [4, 0] 0).message 2 = some (.unitGo 2) := by decide

/-! ### States that meet the hypotheses of the statements -/

theorem test_witness_idle :
    (ready.pending = [] ∧ standing ready = [] ∧ ready.clock.sub + 1 < 50) ∧
      let late : State := { ready with clock := ⟨1000, 49⟩ }
      late.pending = [] ∧ standing late = [] ∧ 50 ≤ late.clock.sub + 1 := by decide

/-- The sample of SEATED at the 1,000th tick, and the tick before it. -/
theorem test_witness_idle_samples :
    let s := fun k : Nat => ({ ready with
      clock := ⟨1000, 49⟩, inputs := { ready.inputs with seatedPin := false, seatedTicks := k } } : State)
    (standing (s 998) = [] ∧ (s 998).inputs.seatedTicks + 1 < 1000) ∧
      standing (s 999) = [] ∧ ¬ (s 999).inputs.seatedTicks + 1 < 1000 := by decide

/-- 1 µs after hard reset the start-up OPEN_ALL stands. -/
theorem test_witness_standing :
    let s : State := { State.reset with clock := ⟨1, 0⟩, work := State.reset.work.tick 1 }
    s.pending = [] ∧ Instr.openAllShiftBegin ∈ standing s := by decide

theorem test_witness_configuration :
    ∃ t, exec .ackNotice ready = .next t ∧ Instr.ackNotice ≠ .hardReset ∧
      (∀ a b c d, Instr.ackNotice ≠ .loadRegion a b c d) ∧
      (∀ a b c d e f g h k, Instr.ackNotice ≠ .configLane a b c d e f g h k) ∧
      (∀ a b c, Instr.ackNotice ≠ .fixtureConfig a b c) ∧ (∀ a, Instr.ackNotice ≠ .setMask a) ∧
      Instr.ackNotice ≠ .seatingChangeUnseated ∧ Instr.ackNotice ≠ .seatingChangeSeated ∧
      Instr.ackNotice ≠ .abortNEdge ∧ Instr.ackNotice ≠ .abortNRise ∧ ∀ n b, Instr.ackNotice ≠ .stableChange n b :=
  ⟨_, rfl, by decide, nofun, nofun, nofun, nofun, by decide, by decide, by decide, by decide, nofun⟩

/-- A working lane, a posted token and a frame in shift, with a command waiting: every invariant holds. -/
def busy : State :=
  { withChain (at' .resultWait)
      { idleChain with queue := [.opn 5], shift := some ⟨.frame (.opn 5), 1001⟩ } with
    pending := [.result 0 7 0 5 0] }

theorem test_witness_invariants :
    busy.work.queuesFit ∧ busy.work.chain.inflightFits ∧ busy.work.tokensFree ∧ busy.work.rested ∧
      (∃ t, step busy = .next t) :=
  ⟨by decide, ⟨by decide, by intro f ends _; decide⟩, by intro k _; revert k; decide, by decide, ⟨_, rfl⟩⟩

theorem test_witness_sound : busy.work.Sound :=
  ⟨by decide, by decide, by decide, by decide, by decide, by decide⟩

/-- Every node of the admitted step has one place. -/
theorem test_witness_frames_fit : busy.work.FramesFit := by
  have nodes : ∀ n : LaneId, ∀ c ∈ (busy.work.lane n).cur, (c.nodes.map (·.1)).Nodup := by decide
  exact ⟨by decide, by decide, nodes⟩

theorem test_witness_shift :
    let s : State := { withChain ready { idleChain with queue := [.close 4095 19] } with pending := [.frameShiftBegin] }
    ∃ t, step s = .next t ∧ t.work.chain.shift = some ⟨.frame (.close 4095 19), 1002⟩ := ⟨_, rfl, by decide⟩

theorem test_witness_read_back :
    ((Instr.postStep 3 bytesA).wellFormed = true ∧ encodeRequest (.postStep 3 bytesA) = some (0x01, 3 :: bytesA) ∧
        (3 :: bytesA : List Byte).length ≤ 512) ∧
      (Instr.result 3 7 0 0x800000 2).wellFormed = true ∧
      encodeFrame (.result 3 7 0 0x800000 2) = some (3, 0x06, [0, 7, 0, 0x80, 0, 0, 2]) := by decide

/-- A step record at the ends of its ranges. -/
def stepZ : StepRecord :=
  { stepA with
    range := 15, settle := 65535, watch := 65535, repeats := 3, low := some (-8388608), high := some 8388607
    connections := List.replicate 16 ⟨65535, .gd, .follower⟩, waitToken := some 31, postToken := some (0, 255) }

theorem test_witness_records :
    stepA.fits = true ∧ stepZ.fits = true ∧ parseRecord .unit bytesA = some { stepA with origin := .unit } ∧
      parseRecord .host (bytesA.set 31 7) = some { stepA with repeats := 3 } ∧
      parseRecord .host ((bytesA.set 16 0).set 17 0) = some { stepA with watch := 1 } := by decide

/-- One record for each check of R67. -/
theorem test_witness_malformed :
    let bad := fun b : List Byte => parseRecord .host b = none
    bad (bytesA.set 35 1) ∧ bad (bytesA.set 35 17) ∧ bad (bytesA ++ [0]) ∧ bad (bytesA.set 2 32) ∧
      bad (bytesA.set 4 16) ∧ bad (bytesA.set 18 64) ∧ bad (bytesA.set 31 8) ∧ bad ((bytesA.set 18 16).set 32 32) ∧
      bad ((bytesA.set 18 32).set 33 32) ∧ bad (bytesA.set 38 5) ∧ bad (bytesA.set 38 16) ∧ bad (bytesA.set 41 32) ∧
      ¬ bad ((bytesA.set 18 63).set 38 12) := by decide

/-- A record with all five flags, the follower high limit, both tokens and a GD connection on the follower's side, its
repeats 7 and watch 0 clamped. -/
theorem test_record_fields :
    let b := ([0, 7, 31, 9, 2, 1, 2, 3] ++ List.replicate 10 0 ++ [56] ++ List.replicate 9 0 ++ [0xFF, 0xFF, 0xFE]
      ++ [7, 6, 5, 4, 2, 0, 10, 0, 0, 11, 12] : List Byte)
    parseRecord .unit b = some
      { stepA with
        origin := .unit, flags := ⟨true, true, true, true, true⟩, function := 9, stimulus := 0x010203, settle := 0
        sourceDelay := 0, gateWidth := 0, watch := 1, followerHigh := some (-2), repeats := 3, waitToken := some 6
        postToken := some (5, 4), connections := [⟨10, .hi, .leader⟩, ⟨11, .gd, .follower⟩] } := by decide

theorem test_witness_load_region :
    8 ≤ (8 : Byte).toNat ∧ (7 : Byte).toNat < 8 ∧
      let r := fun v : BitVec 16 => v.toNat / 8 * 8
      r 7 = 0 ∧ (r 4104 ≠ 0 ∧ 4096 < r 4104) ∧ (r 520 ≠ 0 ∧ 65536 < r 65024 + r 520) ∧ (r 8 ≠ 0 ∧ 4088 < r 4096) ∧
      r 4103 ≠ 0 ∧ r 4103 ≤ 4096 ∧ r 61440 + r 4103 ≤ 65536 ∧ r 4095 ≤ 4088 := by decide

/-- Region 0 serves 0 to 4,095 of the overlap with region 7; 4,095 is the last node, 8,000 maps beyond it. -/
def overlapped : Fixed :=
  { ready.fix with regions := ready.fix.regions.set 7 ⟨true, 4088, 4096, 4088⟩ }

theorem test_witness_translation :
    let window := fun (k : Fin 8) (l : Nat) =>
      let r := overlapped.regions[k.val]
      r.valid = true ∧ r.start ≤ l ∧ l < r.start + r.size
    let m := fun (k : Fin 8) (l : Nat) => window k l ∧ ∀ j : Fin 8, j < k → ¬ window j l
    m 0 4095 ∧ m 7 4096 ∧ m 7 8183 ∧ window 7 4088 ∧ ¬ window 7 4087 ∧ (∀ k : Fin 8, ¬ window k 8184) ∧
      translate overlapped 4095 = .ok 4095 ∧ translate overlapped 4096 = .error .nodeRange := by decide

theorem test_witness_admission_checks :
    let fused := { stepA with flags := ⟨true, false, false, false, false⟩ }
    let f := ready.fix
    fuseOk f 0 fused = false ∧ (fuseOk f 0 stepA = true ∧ rolesOk { stepA with connections := [] } = false) ∧
      (fuseOk f 0 stepA = true ∧ rolesOk stepA = true ∧
        limitsOk { stepA with low := some 1, high := some 0 } = false) ∧
      limitsOk stepA = true ∧ limitsOk { stepA with low := some 0, high := some 0 } = true ∧
      translate f 10 = .ok 10 ∧ translate f 4096 = .error .unmapped ∧
      stepA.connections.map (fun k => translate f k.logical) = [10, 11].map Except.ok := by decide

/-- The conditions of R75 to R77 written out: lane 0 leads lane 1 when that is enabled, each needed role is there, and
limits may be equal. -/
theorem test_witness_admission_conditions :
    let enabled := { ready.fix with lanes := ready.fix.lanes.set 1 { LaneConfig.reset with enabled := true } }
    let count := fun (r : StepRecord) (x : Side) (o : Role) =>
      ((r.connections.filter fun k => decide (k.side = x)).filter fun k => decide (k.role = o)).length
    (stepF.flags.fused = true ∧ (ready.fix.lanes[1]).enabled = false ∧ (enabled.lanes[1]).enabled = true) ∧
      (count stepF .leader .hi = 1 ∧ count stepF .leader .lo = 1 ∧ count stepF .leader .sh = 0 ∧
        count stepF .follower .hi = 1 ∧ count stepF .follower .lo = 0) ∧
      (∃ nodes, admissionCheck enabled 0 stepF = .ok nodes ∧ nodes.map (·.2.val) = [0, 1, 5]) :=
  ⟨by decide, by decide, _, rfl, by decide⟩

theorem test_witness_config_lane :
    (4 ≤ (4 : Byte).toNat ∧ 64 ≤ (64 : Byte).toNat ∧ (0x800000 : BitVec 24).toInt = -8388608) ∧
      ¬ (4 ≤ (3 : Byte).toNat ∨ 2 ≤ (1 : Byte).toNat ∨ 64 ≤ (63 : Byte).toNat ∨ (0x800001 : BitVec 24).toInt = -8388608) ∧
      ¬ (((at' .none).work.lane 0).cur = none) ∧
      ((ready.work.lane 3).run = .stopped ∧ (ready.work.lane 3).cur = none) := by decide

theorem test_witness_fixture_config :
    let good := fun (c l r : BitVec 16) =>
      c.toNat % 64 = 0 ∧ 64 ≤ c.toNat ∧ c.toNat ≤ 4096 ∧ 1 ≤ l.toNat ∧ l.toNat ≤ 1023 ∧ 1 ≤ r.toNat ∧ r.toNat ≤ 1023
    entriesWf ready.work.nodes.entries ∧ good 64 1 1023 ∧ good 4096 1023 1 ∧ ¬ good 0 1 1 ∧ ¬ good 4160 1 1 ∧
      ¬ good 64 0 1 ∧ ¬ good 64 1 1024 ∧ entriesWf (at' .claim).work.nodes.entries ∧
      ((at' .claim).work.lane 0).run ≠ .stopped := by decide

theorem test_witness_fixture_idle :
    (∀ n : LaneId, (ready.work.lane n).run = .stopped ∧ (ready.work.lane n).cur = none) ∧
      ∀ n, (ready.work.node n).phase = .opened ∧ (ready.work.node n).holder = .none :=
  ⟨by decide, fun _ => ⟨rfl, rfl⟩⟩

theorem test_witness_set_mask : 64 ≤ (64 : Byte).toNat ∧ (63 : Byte).toNat < 64 := by decide

theorem test_witness_ack_notice :
    let s : State := { ready with
      fix := { ready.fix with masks := 0x1F }, work := { ready.work with notices := #v[1, 0, 0, 0, 31, 2] } }
    (s.fix.masks.getLsbD 5 = false ∧ s.work.notices[5] ≠ 0 ∧
        ∀ j : Fin 6, j < 5 → s.fix.masks.getLsbD j.val = true ∨ s.work.notices[j.val] = 0) ∧
      ∀ j : Fin 6, ready.fix.masks.getLsbD j.val = true ∨ ready.work.notices[j.val] = 0 := by decide

/-- `ready` with the queue of lane 3 full but for n records. -/
def nearlyFull (n : Nat) : State := withLane ready 3 { Lane.reset with queue := List.replicate (64 - n) stepA }

theorem test_witness_posts :
    4 ≤ (4 : Byte).toNat ∧ parseRecord .host [] = none ∧ (3 : LaneId).val = (3 : Byte).toNat ∧
      parseRecord .host bytesA = some stepA ∧ 64 ≤ ((nearlyFull 0).work.lane 3).length ∧
      ((nearlyFull 1).work.lane 3).length < 64 ∧ ((nearlyFull 1).work.lane 3).tx.length < 32 ∧
      recordLengthOk [] = false ∧ recordLengthOk (bytesA.set 4 16) = true ∧
      parseRecord .unit (bytesA.set 4 16) = none ∧ (parseRecord .unit bytesA).isSome = true := by decide

/-- R196: an answer that finds 32 messages. -/
theorem test_witness_transmit_full :
    let l : Lane := { Lane.reset with tx := List.replicate 32 (.accept 1) }
    ¬ ((withLane ready 1 l).work.lane 1).tx.length < 32 ∧
      (after (.post 1 bytesA) (withLane ready 1 l)).map (fun w => ((w.lane 1).queue.length, w.notices[2]))
        = some (1, 16) := by decide

theorem test_witness_readouts :
    4 ≤ (4 : Byte).toNat ∧ (3 : LaneId).val = (3 : Byte).toNat ∧ ((at' .gate).work.lane 0).cur = some (cur .gate) ∧
      (let l : Lane := { Lane.reset with run := .running, queue := [stepA] };
        l.inAdmit = true ∧ l.queue.head? = some stepA) ∧
      ((ready.work.lane 3).cur = none ∧ (ready.work.lane 3).inAdmit = false) ∧
      4096 ≤ (4096 : BitVec 16).toNat ∧ (4095 : BitVec 16).toNat < 4096 ∧
      ({ ready.work with nodes := ⟨[], [(5, 1001)], [], 3⟩ }).lingering 5 = some 1001 ∧
      ready.work.lingering 5 = none ∧ 8 ≤ (8 : Byte).toNat ∧ (7 : Byte).toNat < 8 := by decide

/-- Node 5 with an entry, a linger list and a frame queue, on a part at rest. -/
def nodeWork (x : NodeEntry) (linger : List (Nat × Time)) (queue : List Frame) : Work :=
  { ready.work with nodes := ⟨[(5, x)], linger, [], 3⟩, chain := { idleChain with queue := queue } }

/-- One entry for each row of R22, for required bus 0. -/
theorem test_witness_claim_table :
    (let w := nodeWork ⟨.opened, none, .none, none, false, some 0⟩ [] [];
      (w.node 5).phase = .opened ∧ (w.node 5).target = none) ∧
    (let w := nodeWork ⟨.closed, some 0, .none, none, false, none⟩ [(5, 1500)] [];
      (w.node 5).phase = .closed ∧ (w.node 5).bus = some 0 ∧ w.chain.openQueued 5 = false ∧ (w.lingering 5).isSome) ∧
    (let w := nodeWork ⟨.closed, some 0, .none, none, true, none⟩ [] [];
      (w.node 5).phase = .closed ∧ (w.node 5).bus = some 0 ∧ w.chain.openQueued 5 = false ∧ w.lingering 5 = none ∧
        (w.node 5).due = true) ∧
    (let w := nodeWork ⟨.closed, some 0, .none, none, false, none⟩ [] [.opn 5];
      (w.node 5).phase = .closed ∧ (w.node 5).bus = some 0 ∧ w.chain.openQueued 5 = true) ∧
    (let w := nodeWork ⟨.closed, some 1, .none, none, false, none⟩ [(5, 1500)] [];
      (w.node 5).phase = .closed ∧ (w.node 5).bus ≠ some 0 ∧ w.chain.openQueued 5 = false ∧ (w.lingering 5).isSome) ∧
    (let w := nodeWork ⟨.closed, some 1, .none, none, false, none⟩ [] [.opn 5];
      (w.node 5).phase = .closed ∧ (w.node 5).bus ≠ some 0 ∧ w.chain.openQueued 5 = true) ∧
    (nodeWork ⟨.opening, some 1, .none, none, false, none⟩ [] []).node 5 = ⟨.opening, some 1, .none, none, false, none⟩ ∧
    (let w := nodeWork ⟨.closing, some 0, .none, none, true, none⟩ [] [];
      (w.node 5).phase = .closing ∧ (w.node 5).due = true ∧ (w.node 5).bus = some 0) ∧
    (let w := nodeWork ⟨.closing, some 1, .none, none, true, none⟩ [] [];
      (w.node 5).phase = .closing ∧ (w.node 5).due = true ∧ (w.node 5).bus ≠ some 0) := by decide

/-- An abandonable OPEN shift in row 4 and a CLOSE shift in R28's withdrawal. -/
theorem test_witness_withdrawals :
    (let w : Work := { nodeWork ⟨.closed, some 0, .none, none, false, none⟩ [] [.opn 5] with
        chain := { idleChain with queue := [.opn 5], shift := some ⟨.frame (.opn 5), 1001⟩ } };
      w.chain.openQueued 5 = true ∧ w.chain.shift = some ⟨.frame (.opn 5), 1001⟩) ∧
    (let w : Work := { nodeWork ⟨.opened, none, .lane 0, some 0, false, none⟩ [] [] with
        chain := { idleChain with queue := [.close 5 0], shift := some ⟨.frame (.close 5 0), 1001⟩ } };
      (w.node 5).phase = .opened ∧ (w.node 5).target = some 0 ∧ w.chain.closeQueued 5 = true ∧
        w.chain.shift = some ⟨.frame (.close 5 0), 1001⟩) := by decide

/-- A shift of another frame stays: rows 4 and R28's withdrawal. -/
theorem test_witness_other_shift :
    (let w : Work := { nodeWork ⟨.closed, some 0, .none, none, false, none⟩ [] [.opn 5] with
        chain := { idleChain with queue := [.opn 9, .opn 5], shift := some ⟨.frame (.opn 9), 1001⟩ } };
      w.chain.openQueued 5 = true ∧ (w.takeNode (.lane 0) 5 0).chain.shift = some ⟨.frame (.opn 9), 1001⟩) ∧
    (let w : Work := { nodeWork ⟨.opened, none, .lane 0, some 0, false, none⟩ [] [] with
        chain := { idleChain with queue := [.opn 9, .close 5 0], shift := some ⟨.openAll .checked, 1001⟩ } };
      w.chain.closeQueued 5 = true ∧ (w.releaseNode 5 none).chain.shift = some ⟨.openAll .checked, 1001⟩) := by decide

/-- The full linger list, whose first entry leaves. -/
theorem test_witness_linger_full :
    let list := (List.range 128).map fun k => (k + 10, (2000 : Time))
    let w := nodeWork ⟨.closed, some 0, .lane 0, none, false, none⟩ list []
    (w.node 5).phase = .closed ∧ (w.node 5).target = none ∧ w.nodes.linger = list ++ [] ∧
      128 ≤ w.nodes.linger.length ∧ list ++ [(5, 2500)] = (10, 2000) :: (list.drop 1 ++ [(5, 2500)]) :=
  ⟨rfl, rfl, by simp [nodeWork], by simp [nodeWork], rfl⟩

/-- The linger list with one place left. -/
theorem test_witness_release_linger :
    (nodeWork ⟨.closed, some 0, .lane 0, none, false, none⟩
      ((List.range 127).map fun k => (k + 10, 2000)) []).nodes.linger.length < 128 := by simp [nodeWork]

/-- One entry for each row of R28. -/
theorem test_witness_release_table :
    (let x := (nodeWork ⟨.closed, some 0, .lane 0, none, false, none⟩ [(9, 2000)] []).node 5;
      x.phase = .closed ∧ x.target = none) ∧
    (let x := (nodeWork ⟨.closing, some 0, .lane 0, none, false, none⟩ [] []).node 5;
      x.phase = .closing ∧ x.target = none) ∧
    (let x := (nodeWork ⟨.closing, some 1, .lane 0, some 0, true, none⟩ [] []).node 5;
      x.phase = .closing ∧ x.target ≠ none) ∧
    (let w := nodeWork ⟨.opened, none, .lane 0, some 0, false, none⟩ [] [];
      (w.node 5).phase = .opened ∧ (w.node 5).target ≠ none ∧ w.chain.closeQueued 5 = false) ∧
    (nodeWork ⟨.opening, some 1, .lane 0, some 0, false, none⟩ [] []).node 5
      = ⟨.opening, some 1, .lane 0, some 0, false, none⟩ ∧
    (let x := (nodeWork ⟨.closed, some 1, .lane 0, some 0, false, none⟩ [] [.opn 5]).node 5;
      x.phase = .closed ∧ x.target ≠ none) := by decide

/-- R28, R29: with lane 0's linger time of 2,000 and the time base at 1,000 a step's nodes linger to 3,000 behind an equal
expiry, in list order; with RELEASE_NOW each is due at once. Node 12 is lane 1's and stays. -/
theorem test_release_of_a_step :
    let x := fun a : LaneId => (⟨.closed, some 0, .lane a, none, false, none⟩ : NodeEntry)
    let w : Work := { ready.work with nodes := ⟨[(10, x 0), (11, x 0), (12, x 1)], [(9, 3000), (8, 3001)], [], 3⟩ }
    let c := { cur .gate with nodes := [(11, 1), (12, 5), (10, 0)] }
    let now := { c with step := { stepA with flags := ⟨false, false, true, false, false⟩ } }
    lingerUntil ready.env 0 c.step = some 3000 ∧ lingerUntil ready.env 0 now.step = none ∧
      (w.releaseStep ready.env 0 c).nodes.linger = [(9, 3000), (11, 3000), (10, 3000), (8, 3001)] ∧
      (w.releaseStep ready.env 0 c).node 12 = x 1 ∧
      (w.releaseStep ready.env 0 now).nodes.linger = [(9, 3000), (8, 3001)] ∧
      (w.releaseStep ready.env 0 now).node 10 = { x 0 with holder := .none, due := true } := by decide

/-- Lane 0 claims behind lane 1's hold and lane 3's mark; then free nodes with one slot for two frames. -/
def claiming (x : NodeEntry) (queue : List Frame) : Work :=
  { (at' .claim).work with nodes := ⟨[(10, x)], [], [0, 3], 3⟩, chain := { idleChain with queue := queue } }

theorem test_witness_failed_claim :
    (let w := claiming ⟨.closed, some 5, .lane 1, none, false, some 3⟩ [];
      (w.lane 0).cur = some (cur .claim) ∧ (10 ∈ (cur .claim).nodes.map (·.1) ∧ (w.node 10).holder = .lane 1) ∧
        (w.lane 0).run = .running ∧ (cur .claim).phase = .claim ∧ 0 ∈ w.nodes.order ∧
        ((cur .claim).nodes.map (·.1)).Nodup) ∧
    (let w := claiming .reset (List.replicate 63 (.opn 1));
      (w.lane 0).cur = some (cur .claim) ∧
        (∀ p ∈ (cur .claim).nodes, (w.node p.1).holder = .none ∧ (w.node p.1).waiter = none) ∧
        w.chain.freeSlots < (cur .claim).nodes.countP fun p => (w.claimRow p.1 p.2).needsFrame) := by decide

theorem test_witness_set_node :
    (ready.work.calm ∧ 20 ≤ (20 : Byte).toNat ∧ ready.fix.nodeCount ≤ (4096 : BitVec 16).toNat ∧
      (19 : Fin 20).val = (19 : Byte).toNat ∧ (4095 : BitVec 16).toNat < ready.fix.nodeCount) ∧
    (State.reset.work.calm ∧ State.reset.inputs.seated.level = false) ∧ ready.inputs.seated.level = true ∧
    (let w := nodeWork ⟨.closed, some 0, .lane 3, none, false, none⟩ [] [];
      w.calm ∧ (w.node 5).holder = .lane 3) ∧
    (let w := nodeWork ⟨.opened, none, .none, none, false, some 3⟩ [] [];
      w.calm ∧ (w.node 5).waiter ≠ none) ∧
    (let w := nodeWork ⟨.closed, some 19, .manual, none, false, none⟩ [] [];
      w.calm ∧ (w.node 5).holder = .manual ∧ (w.node 5).waiter = none) ∧
    (let w := nodeWork .reset [] (List.replicate 64 (.opn 1));
      w.calm ∧ (w.node 5).holder = .none ∧ (w.node 5).waiter = none ∧ (w.claimRow 5 19).needsFrame = true ∧
        w.chain.freeSlots = 0) ∧
    (let w := nodeWork .reset [] (List.replicate 63 (.opn 1));
      w.calm ∧ (w.claimRow 5 19).needsFrame = true ∧ w.chain.freeSlots ≠ 0) := by decide

/-- R37: lane 0 waits in CLAIM with its mark on node 5, so SET_NODE on it is BUSY, and on a free node it is taken. -/
theorem test_set_node_while_a_lane_waits :
    let w := { (at' .claim).work with nodes := ⟨[(5, ⟨.closed, some 0, .lane 1, none, false, some 0⟩)], [], [0], 3⟩ }
    let s := { at' .claim with work := w }
    w.rested ∧ w.nodes.order ≠ [] ∧ (w.node 5).waiter = some 0 ∧ reply (.setNode 5 0) s = some (.busy, []) ∧
      ((w.node 6).holder = .none ∧ (w.node 6).waiter = none ∧ w.chain.openQueued 6 = false) ∧
      (after (.setNode 6 7) s).map (fun v => (v.node 6, v.chain.queue))
        = some (⟨.opened, none, .manual, some 7, false, none⟩, [.close 6 7]) := by decide

theorem test_witness_free_node :
    4096 ≤ (4096 : BitVec 16).toNat ∧ (4095 : BitVec 16).toNat < 4096 ∧
    ((nodeWork ⟨.closed, some 0, .lane 3, none, false, none⟩ [] []).node 5).holder = .lane 3 ∧
    (ready.work.node 4095).holder = .none ∧
    (let w := nodeWork ⟨.closed, some 0, .manual, none, false, none⟩ [] (List.replicate 63 (.opn 1));
      w.calm ∧ (w.node 5).holder = .manual ∧ (w.node 5).phase = .closed ∧ (w.node 5).target = none ∧
        w.chain.queue.length < 64) ∧
    (let w := nodeWork ⟨.opened, none, .manual, some 19, false, none⟩ [] [.close 5 19];
      w.calm ∧ (w.node 5).holder = .manual ∧ (w.node 5).phase = .opened ∧ (w.node 5).target = some 19 ∧
        w.chain.closeQueued 5 = true ∧ w.chain.shift = none) := by decide

theorem test_witness_linger_expiry :
    let f := fun queue : List Frame => nodeWork ⟨.closed, some 0, .none, none, false, none⟩ [(5, 1000), (9, 1001)] queue
    (f []).nodes.linger = (5, 1000) :: [(9, 1001)] ∧ reached 1000 ready.clock.time = true ∧ (f []).chain.waiting = [] ∧
      (f []).dueNodes = [] ∧ ((f []).node 5).phase = .closed ∧
      (f (List.replicate 63 (.opn 1))).chain.queue.length < 64 ∧
      ¬ (f (List.replicate 64 (.opn 1))).chain.queue.length < 64 := by decide

theorem test_witness_frames :
    (let s := withChain ready
        { idleChain with queue := [.close 5 0], inflight := List.replicate 31 (.close 9, 1100) };
      s.work.chain.queue = [.close 5 0] ∧ s.clock.sub = 0 ∧ mayShift s.env s.work (.close 5 0) ∧
        s.work.chain.holdOff = false ∧ s.work.chain.closeHoldOff = false) ∧
    (withChain ready { idleChain with queue := [.opn 5], holdOff := true }).work.chain.holdOff = true ∧
    (let s := withChain ready { idleChain with shift := some ⟨.abandoned, 1000⟩ };
      s.work.chain.shift = some ⟨.abandoned, 1000⟩ ∧ reached 1000 s.clock.time = true ∧ s.work.rested ∧
        s.work.chain.holds = []) :=
  ⟨⟨by decide, by decide,
    ⟨by decide, by decide, by decide, by decide, by decide, fun n b h => by cases h; decide⟩, by decide, by decide⟩,
    by decide, by decide⟩

theorem test_witness_good_frames :
    (let w : Work := { ready.work with
        chain := { idleChain with queue := [.close 5 0], shift := some ⟨.frame (.close 5 0), 1000⟩ } };
      w.calm ∧ w.chain.shift = some ⟨.frame (.close 5 0), 1000⟩ ∧ reached 1000 ready.clock.time = true ∧
        (w.node 5).phase = .opened) ∧
    (let w : Work := { nodeWork ⟨.closed, some 0, .none, none, false, none⟩ [] [.opn 5] with
        chain := { idleChain with queue := [.opn 5], shift := some ⟨.frame (.opn 5), 1000⟩ } };
      w.calm ∧ w.chain.shift = some ⟨.frame (.opn 5), 1000⟩ ∧ (w.node 5).phase = .closed) := by decide

theorem test_witness_mismatch :
    let c : Chain := { idleChain with queue := [.close 5 0], shift := some ⟨.frame (.close 5 0), 1000⟩ }
    c.shift = some ⟨.frame (.close 5 0), 1000⟩ ∧ reached 1000 ready.clock.time = true ∧ c.state = .ready ∧
      (0 : BitVec 32) ≠ (Frame.close 5 0).word := by decide

/-- `at'` with node 5 OPEN behind the CLOSE that ends its shift now, an entry in flight before it and one behind. -/
def misread (s : State) : State :=
  withNode
    (withChain s
      { idleChain with
        queue := [.close 5 0, .opn 6], shift := some ⟨.frame (.close 5 0), 1000⟩
        inflight := [(.close 7, 1400), (.release 8, 1401)] })
    5 ⟨.opened, none, .lane 0, some 0, false, none⟩

/-- The premises of the mismatch that every lane state shares, and the split of the in-flight list at 1,400. -/
theorem test_witness_mismatch_shared :
    let s := misread ready
    s.work.rested ∧ s.work.chain.waiting = [] ∧ s.work.dueNodes = [] ∧ entriesWf s.work.nodes.entries ∧
      (s.work.node 5).phase = .opened ∧ (5, 0) ∉ s.work.chain.waiting ∧ s.fix.closeTime = 400 ∧
      earlier 1400 1400 = false ∧ earlier 1400 1401 = true := by decide

/-- R55, R56, R183: node 5 is CLOSING and its entry in flight in its place, the frame is gone, and of lanes with no step
the RUNNING one is HELD and a STOPPED one stays. -/
theorem test_mismatch_with_no_step :
    let w := after (.frameShiftEnd 0) (misread (withLane ready 0 { Lane.reset with run := .running }))
    w.map (·.node 5) = some ⟨.closing, some 0, .lane 0, none, false, none⟩ ∧
      w.map (·.chain) = some
        { idleChain with
          state := .fault, queue := [.opn 6], requests := [⟨.unchecked, true⟩]
          inflight := [(.close 7, 1400), (.close 5, 1400), (.release 8, 1401)] } ∧
      w.map (fun w => ((w.lane 0).run, (w.lane 1).run)) = some (.held, .stopped) ∧
      w.map (·.notices[0]) = some 8 := by decide

/-- R183, R184: a step in TOKEN_WAIT is kept, and one in GATE is delivered ABORTED with its node, now CLOSING, due. -/
theorem test_mismatch_with_a_step :
    let kept := after (.frameShiftEnd 0) (misread (at' .tokenWait))
    let gone := after (.frameShiftEnd 0)
      (misread (withLane ready 0 (working { cur .gate with nodes := [(5, 0), (11, 1)] })))
    kept.map (·.lane 0) = some { working { cur .none with resume := some .tokenWait } with run := .held } ∧
      gone.map (fun w => ((w.lane 0).run, (w.lane 0).tx, (w.lane 0).cur)) = some (.held, [.cancel 7 0], none) ∧
      gone.map (fun w => w.results.map (·.verdict)) = some [.aborted] ∧
      gone.map (·.node 5) = some ⟨.closing, some 0, .none, none, true, none⟩ := by decide

/-- R19, R57, R59: the OPEN_ALL of CHAIN_RESET mismatches; its effect stands, nothing more is asked for, and the lane is
HELD. -/
theorem test_mismatch_on_open_all :
    let s := withNode (withLane ready 0 { Lane.reset with run := .paused }) 5 ⟨.closed, some 0, .none, none, true, none⟩
    let c := { idleChain with state := .fault, queue := [.opn 6], shift := some ⟨.openAll .chainReset, 1000⟩ }
    let w := after (.openAllShiftEnd 0) (withChain { s with work := { s.work with port := ⟨none, true⟩ } } c)
    w.map (·.node 5) = some ⟨.opening, some 0, .none, none, false, none⟩ ∧
      w.map (·.chain) = some { idleChain with state := .fault, inflight := [(.openAll, 1200)] } ∧
      w.map (·.port.reply) = some (some ⟨0x13, .chainFault, []⟩) ∧ w.map (fun w => (w.lane 0).run) = some .held := by
  decide

/-- The OPEN_ALL of every kind ends at the present clock with other bits, in READY and with a reply awaited. -/
theorem test_witness_open_all_mismatch :
    ∀ k : OpenAllKind, ∃ s : State, s.work.chain.shift = some ⟨.openAll k, 1000⟩ ∧ s.work.chain.state = .ready ∧
      s.work.port.awaiting = true ∧ reached 1000 s.clock.time = true ∧ (0 : BitVec 32) ≠ openAllWord :=
  fun k => ⟨{ ready with
      work := { ready.work with chain := { idleChain with shift := some ⟨.openAll k, 1000⟩ }, port := ⟨none, true⟩ } },
    rfl, rfl, rfl, (by decide : reached 1000 ready.clock.time = true), by decide⟩

theorem test_witness_open_all :
    (let c : Chain := { idleChain with requests := [⟨.checked, false⟩], shift := some ⟨.frame (.opn 5), 1001⟩ };
      c.requests = ⟨.checked, false⟩ :: [] ∧ ready.clock.sub = 0 ∧ ∀ j ends, c.shift ≠ some ⟨.openAll j, ends⟩) ∧
    ({ idleChain with requests := [⟨.checked, true⟩] } : Chain).requests = ⟨.checked, true⟩ :: [] ∧
    ∀ k : OpenAllKind,
      (withChain ready { idleChain with shift := some ⟨.openAll k, 1000⟩ }).work.chain.shift
          = some ⟨.openAll k, 1000⟩ ∧
        reached 1000 ready.clock.time = true ∧ ready.work.nodes.order = [] ∧ entriesWf ready.work.nodes.entries :=
  ⟨⟨rfl, rfl, nofun⟩, rfl, fun _ => ⟨rfl, by decide, by decide, by decide⟩⟩

theorem test_witness_completions :
    (let w : Work := { nodeWork ⟨.closing, some 0, .manual, none, false, none⟩ [] [] with
        chain := { idleChain with inflight := [(.close 5, 1000)] } };
      w.calm ∧ w.chain.holds = [] ∧ entriesWf w.nodes.entries ∧ w.chain.inflight = [(.close 5, 1000)] ∧
        reached 1000 ready.clock.time = true ∧ (w.node 5).phase = .closing ∧ (∀ a, (w.node 5).holder ≠ .lane a) ∧
        ¬ 64 ≤ w.chain.queue.length) ∧
    (let w : Work := { (at' .switch).work with
        nodes := ⟨[(10, ⟨.closing, some 0, .lane 0, none, false, none⟩), (11, ⟨.closed, some 1, .lane 0, none, false, none⟩)],
          [], [], 3⟩
        chain := { idleChain with inflight := [(.close 10, 1000)] } };
      w.calm ∧ entriesWf w.nodes.entries ∧ (w.node 10).phase = .closing ∧ (w.node 10).holder = .lane 0 ∧
        (w.node 10).due = false ∧ (w.node 10).target = none ∧ (w.lane 0).cur = some (cur .switch) ∧
        (cur .switch).step.flags.adaptive = false ∧ (cur .switch).settle ≠ 0 ∧
        (w.node 11).phase = .closed ∧ (w.node 11).bus = some 1 ∧ (w.node 11).target = none ∧
        (w.node 11).holder = .lane 0 ∧ (w.node 10).bus = some 0 ∧ (cur .switch).nodes = [(10, 0), (11, 1)]) ∧
    (let w : Work := { nodeWork ⟨.opening, some 0, .lane 0, some 5, false, none⟩ [] [] with
        chain := { idleChain with queue := List.replicate 63 (.opn 1), inflight := [(.release 5, 1000)] } };
      w.calm ∧ (w.node 5).phase = .opening ∧ w.chain.queue.length < 64) := by decide

/-- `ready` with a node 5, frames in the queue and one operation that completes now. -/
def ending (x : NodeEntry) (o : Operation) (queue : List Frame) : State :=
  { ready with work := { nodeWork x [] [] with chain := { idleChain with queue := queue, inflight := [(o, 1000)] } } }

/-- R23, R32: a close of node 10 while node 11 of the claim is still CLOSING, and one of a due node with no holder. -/
theorem test_close_before_the_last :
    let two : Work := { (at' .switch).work with
      nodes := ⟨[(10, ⟨.closing, some 0, .lane 0, none, false, none⟩), (11, ⟨.closing, some 1, .lane 0, none, false, none⟩)],
        [], [], 3⟩
      chain := { idleChain with inflight := [(.close 10, 1000), (.close 11, 1001)] } }
    two.calm ∧ entriesWf two.nodes.entries ∧ (two.node 11).phase ≠ .closed ∧
      (after .closeComplete { ready with work := two }).map (fun w => ((w.node 10).phase, w.lane 0))
        = some (.closed, working (cur .switch)) ∧
      (after .closeComplete (ending ⟨.closing, some 0, .none, none, true, none⟩ (.close 5) [])).map
          (fun w => (w.node 5, w.chain.queue))
        = some (⟨.closed, some 0, .none, none, false, none⟩, [.opn 5]) := by decide

/-- R32, R46: with 64 frames queued a due node that has closed stays due, and the CLOSE onto a target waits. -/
theorem test_completions_find_the_queue_full :
    let full := List.replicate 64 (Frame.opn 1)
    (after .closeComplete (ending ⟨.closing, some 0, .none, none, true, none⟩ (.close 5) full)).map (·.node 5)
        = some ⟨.closed, some 0, .none, none, true, none⟩ ∧
      (after .releaseComplete (ending ⟨.opening, some 0, .lane 0, some 5, false, none⟩ (.release 5) full)).map
          (fun w => (w.node 5, w.chain.waiting))
        = some (⟨.opened, none, .lane 0, some 5, false, none⟩, [(5, 5)]) := by decide +kernel

/-- The settles that end at their start: FIXED 0, ADAPTIVE with STABLE high, and ADAPTIVE with a cap of 0 and it low. -/
theorem test_witness_settle_at_start :
    let c := fun (adaptive : Bool) (settle : Nat) =>
      { cur .switch with settle := settle, step := { stepA with flags := ⟨false, false, false, adaptive, false⟩ } }
    let high := ({ ready.inputs with stable := ready.inputs.stable.set 0 ⟨true, true, false⟩ } : Inputs)
    ((c false 0).step.flags.adaptive = false ∧ (c false 0).settle = 0) ∧
      ((c true 600).step.flags.adaptive = true ∧ (c true 600).step.minSettle = 0 ∧ (high.stable[0]).level = true) ∧
      ((c true 0).step.flags.adaptive = true ∧ (ready.inputs.stable[0]).level = false ∧ (c true 0).settle = 0) ∧
      ((c true 600).settle ≠ 0 ∧ (c true 600).leader.ready = false) ∧
      (let d := { c false 0 with leader := { SideState.start with ready := true } };
        d.leader.ready = true ∧ d.step.flags.fused = false ∧ d.step.sourceDelay ≠ 0 ∧
          (ready.fix.lanes[0]).lineMode = .auto) := by decide

theorem test_witness_open_all_complete :
    let w : Work := { ready.work with chain := { idleChain with inflight := [(.openAll, 1000)] } }
    w.calm ∧ w.chain.inflight = [(.openAll, 1000)] ∧ ∀ n, (w.node n).phase = .opening → (w.node n).target = none :=
  ⟨by decide, rfl, fun _ _ => rfl⟩

theorem test_witness_chain_reset :
    ready.work.chain.state = .ready ∧ State.reset.work.chain.state = .starting ∧
      let c : Chain := { idleChain with state := .fault, requests := [⟨.unchecked, true⟩] }
      c.state = .fault ∧ c.resetting = false := by decide

theorem test_witness_tokens :
    32 ≤ (32 : Byte).toNat ∧ (31 : Fin 32).val = (31 : Byte).toNat ∧
      (let w : Work := { ready.work with tokens := ready.work.tokens.set 31 (some (.unit 2, 5)) };
        w.tokens[31] = some (.unit 2, 5)) ∧
      ready.work.tokens[31] = none ∧ ready.work.waitingLanes 31 = [] ∧ ready.work.rested ∧
      (ready.work.lane 3).tx.length < 32 := by decide

/-- Lanes 1 and 3 wait on token 31. -/
def waiters : Work :=
  let c := { cur .tokenWait with step := { stepA with waitToken := some 31 } }
  ((ready.work.setLane 1 (working c)).setLane 3 (working c))

theorem test_witness_post_to_waiter :
    waiters.tokens[31] = none ∧
      (waiters.lane 1).cur = some { cur .tokenWait with step := { stepA with waitToken := some 31 } } ∧
      (cur .tokenWait).phase = .tokenWait ∧ ∀ m : LaneId, m < 1 → m ∉ waiters.waitingLanes 31 := by decide

theorem test_witness_take_results :
    16 < (17 : Byte).toNat ∧ (16 : Byte).toNat ≤ 16 ∧
      let w : Work := { ready.work with results := [(cur .deliver).toRecord 0 .pass] }
      w.waitingSet = [] ∧ w.rested := by decide

/-- 128 records, and lanes 1 and 3 in DELIVER: a count of 1 frees one place for lane 1 (last delivering lane 0). -/
theorem test_witness_handout :
    let d := { cur .deliver with record := some ((cur .deliver).toRecord 1 .pass) }
    let w : Work :=
      { (ready.work.setLane 1 (working d)).setLane 3 (working d) with
        results := List.replicate 128 ((cur .deliver).toRecord 2 .pass), lastDelivering := 0 }
    w.rested ∧ w.waitingSet = [1, 3] ∧ (∀ n : LaneId, (w.lane n).frozen = false) ∧ w.results.take 1 ≠ [] ∧
      (w.lane 1).cur = some d ∧ d.record = some ((cur .deliver).toRecord 1 .pass) ∧ d.step.flags.fused = false ∧
      [1, 2, 3, 0].filter (fun n : LaneId => n ∈ w.waitingSet) = [1, 3] := by decide

/-- A record with every field present. -/
theorem test_result_bytes :
    ({ (cur .deliver).toRecord 2 .fail with
        origin := .unit, raw := some (-1), settle := some 258, token := some (.lane 3, 9), overpost := true
        follower := some (5, some (-2)) } : ResultRecord).bytes
      = [0, 7, 14, 1, 0, 0, 4, 15, 0x80, 0, 0, 0xFF, 0xFF, 0xFF, 1, 2, 8, 9, 0, 0, 5, 0xFF, 0xFF, 0xFE] := by decide

theorem test_witness_correction :
    (let q := roundQuotient (-5 * (16384 : Nat));
      2 * ((-5 : Int) * (16384 : Nat) - 32768 * q).natAbs = 32768) ∧
      (let q := roundQuotient (8388607 * (32768 : Nat));
        (-8388607 ≤ q + 0 ∧ q + 0 ≤ 8388607) ∧ 8388607 < q + 1) ∧
      let q := roundQuotient (-8388608 * (32768 : Nat))
      q + 0 < -8388607 := by decide

/-- The limits at their ends, and one beyond. -/
theorem test_witness_limits :
    let within := fun (low high : Option Int) (v : Int) => (∀ l, low = some l → l ≤ v) ∧ ∀ h, high = some h → v ≤ h
    within (some 5) (some 5) 5 ∧ within none none 8388607 ∧ ¬ within (some 6) none 5 ∧ ¬ within none (some 4) 5 :=
  ⟨⟨fun _ h => by cases h; decide, fun _ h => by cases h; decide⟩, ⟨nofun, nofun⟩,
    fun h => absurd (h.1 6 rfl) (by decide), fun h => absurd (h.2 4 rfl) (by decide)⟩

theorem test_witness_channel :
    (1 ≤ 1 ∧ 1 ≤ 65535 ∧ 1 ≤ (alignedStart false ⟨1000, 0⟩ - 1000).toNat + 1 * 1) ∧
      65535 ≤ 65535 ∧ 4194264 ≤ (alignedStart true ⟨1000, 0⟩ - 1000).toNat + 65535 * 64 ∧
      (23 < (alignedStart true ⟨1000, 0⟩ - 1000).toNat ∧ (⟨1000, 1⟩ : Clock).sub ≠ 0) := by decide

theorem test_witness_go :
    (ready.work.rested ∧ ∀ n : LaneId, (ready.work.lane n).cur = none ∧ (ready.work.lane n).frozen = false) ∧
      ((0 : Byte).toNat = 0 ∧ 16 ≤ (16 : Byte).toNat ∧ 1 ≤ (15 : Byte).toNat ∧ (15 : Byte).toNat < 16) ∧
      State.reset.inputs.seated.level = false ∧
      (ready.inputs.seated.level = true ∧ ready.work.chain.state = .ready) ∧
      (∀ n : LaneId, (1 : Byte).getLsbD n.val = true →
        (ready.fix.lanes[n.val]).lineMode = .auto ∧ (ready.fix.lanes[n.val]).enabled = true) ∧
      (ready.fix.lanes[3]).enabled = false ∧ (ready.work.lane 3).tx.length < 32 := by decide

/-- Lane 0 leads a FUSED step, lane 1 is frozen and FOLLOWING, and lane 2 is PAUSED. -/
theorem test_witness_go_following :
    let w := (((ready.work.setLane 0 (working (curF none))).setLane 1
      { Lane.reset with run := .following, remembered := some .paused, frozen := true }).setLane 2
      { Lane.reset with run := .paused })
    w.rested ∧ (∀ n : LaneId, (w.lane n).run = .running ∨ (w.lane n).run = .pausing ∨ (w.lane n).run = .following ∨
      ((w.lane n).cur = none ∧ (w.lane n).frozen = false)) ∧
      (w.lane 1).run = .following ∧ (w.lane 1).frozen = true ∧ (w.lane 0).cur = some (curF none) := by decide

theorem test_witness_go_refusals :
    (withChain ready { idleChain with state := .fault }).work.chain.state ≠ .ready ∧
      let f : Fixed := { ready.fix with lanes := ready.fix.lanes.set 3 { LaneConfig.reset with lineMode := .manual } }
      (f.lanes[3]).lineMode = .manual := by decide

theorem test_witness_pause :
    (at' .tokenWait).work.rested ∧ (∀ m a, ((at' .tokenWait).work.node m).waiter ≠ some a) ∧
      (at' .tokenWait).work.nodes.order = [] ∧ entriesWf (at' .tokenWait).work.nodes.entries ∧
      (∀ (n : LaneId) (c : CurStep), ((at' .tokenWait).work.lane n).cur = some c →
        c.phase ≠ .fuseWait ∧ c.phase ≠ .claim ∧ c.phase ≠ .none ∧ c.phase ≠ .admission) := by
  have marks : ∀ m, ((at' .tokenWait).work.node m).waiter = none := fun _ => rfl
  have phases : ∀ n : LaneId, ∀ c ∈ ((at' .tokenWait).work.lane n).cur,
      c.phase ≠ .fuseWait ∧ c.phase ≠ .claim ∧ c.phase ≠ .none ∧ c.phase ≠ .admission := by decide
  exact ⟨by decide, fun m a => by simp [marks m], by decide, by decide, phases⟩

/-- A kept step at a resume point, and the phases that PAUSE keeps. -/
theorem test_witness_kept :
    (let l := { working { cur .none with resume := some .claim } with run := .held };
      l.run = .held ∧ l.cur = some { cur .none with resume := some .claim }) ∧
    (let c := { cur .none with resume := some .tokenWait, step := { stepA with waitToken := some 31 } };
      c.resume = some .tokenWait ∧ c.step.waitToken = some 31 ∧ c.token = none ∧ ready.work.tokens[31] = none) ∧
    (working (cur .claim)).run = .running ∧ (cur .claim).phase = .claim ∧
    ({ curF none with phase := .fuseWait } : CurStep).phase = .fuseWait := by decide

theorem test_witness_cancel_phases :
    ((at' .claim).work.lane 0).cur = some (cur .claim) ∧ (cur .claim).step.flags.fused = false ∧
      ((at' .claim).work.lane 0).frozen = false ∧ (cur .gate).phase = .gate ∧ (cur .gate).step.origin = .host ∧
      ((at' .gate).work.lane 0).pendingHold = false ∧ ((at' .gate).work.lane 0).tx.length < 32 ∧
      (at' .gate).work.results.length < 128 := by decide

theorem test_witness_cancel :
    (at' .deliver).work.rested ∧ 4 ≤ (4 : Byte).toNat ∧ (3 : LaneId).val = (3 : Byte).toNat ∧
      ((at' .deliver).work.lane 0).cur = some (cur .deliver) ∧ (cur .deliver).phase = .deliver ∧
      ((nearlyFull 0).work.lane 3).cur = none := by decide

theorem test_witness_ready :
    ((at' .gate).work.rested ∧ ((at' .gate).work.lane 0).run ≠ .following ∧
      ((at' .gate).work.lane 0).cur = some (cur .gate) ∧
      (cur .gate).phase ≠ .switch ∧ (cur .gate).phase ≠ .settle ∧ (cur .gate).phase ≠ .readyWait) ∧
    ((cur .switch).step.tag = 7 ∧ (0 : Byte).toNat = (cur .switch).attempt ∧ (cur .switch).leader.ready = false ∧
      (cur .switch).phase = .switch) ∧
    ((cur .readyWait).phase = .readyWait ∧ (cur .readyWait).step.flags.fused = false ∧
      (cur .readyWait).step.sourceDelay ≠ 0 ∧ (ready.fix.lanes[0]).lineMode = .auto) ∧
    (let s := withLane (at' .settle) 1 { Lane.reset with run := .following, remembered := some .paused };
      (s.work.lane 1).run = .following ∧ (s.work.lane 0).cur = some (cur .settle) ∧
        (cur .settle).follower.ready = false ∧ (cur .settle).phase = .settle ∧ s.work.rested) := by decide

theorem test_witness_result :
    (at' .source).work.rested ∧ 3 ≤ (3 : Byte).toNat ∧ (2 : Byte).toNat < 3 ∧
      ((at' .source).work.lane 0).run ≠ .following ∧ ((at' .switch).work.lane 0).cur = some (cur .switch) ∧
      (cur .switch).phase ≠ .resultWait ∧ (cur .switch).phase ≠ .source ∧ (cur .switch).phase ≠ .gate ∧
      readingFlagOf 2 = some .fault ∧ ((at' .source).work.lane 0).cur = some (cur .source) ∧
      (cur .source).step.tag = 7 ∧ (0 : Byte).toNat = (cur .source).attempt ∧ (cur .source).phase = .source ∧
      (cur .source).leader.held = none := by decide

theorem test_witness_link :
    let f := fun gap : Nat => ({ Lane.reset with rx := .inFrame [5, 3, 0, 7, 0] gap } : Lane)
    ((f 1001).rx = .inFrame [5, 3, 0, 7, 0] 1001 ∧ 1000 < 1001) ∧ ((f 1000).rx = .inFrame [5, 3, 0, 7, 0] 1000 ∧
        ¬ 1000 < 1000 ∧ ([0, 7, 0] : List Byte).length < 256 ∧ BitVec.ofNat 8 ([0, 7, 0] : List Byte).length = (3 : Byte)) ∧
      Lane.reset.rx = .hunting ∧
      (let l : Lane := { Lane.reset with tx := [.accept 7] };
        l.sending = none ∧ l.tx = [.accept 7]) ∧
      (let l : Lane := { Lane.reset with tx := [.accept 7], sending := some 0 };
        l.sending = some 0) ∧
      ({ Lane.reset with tx := [.accept 7], sending := some (199 + 1) } : Lane).sending = some (199 + 1) := by decide

/-- A byte that comes at the next clock, at a gap of 1,000 clocks and over it, and one that does not come yet. -/
theorem test_witness_line :
    let s := fun (rx : Receiver) (b : LineByte) => ({ withLane ready 2 { Lane.reset with rx := rx } with
      inputs := { ready.inputs with lines := ready.inputs.lines.set 2 [b] } } : State)
    (standing (s .hunting ⟨1, 0x7E, true⟩) = [] ∧ (s .hunting ⟨1, 0x7E, true⟩).pending = [] ∧
        (s .hunting ⟨1, 0x7E, true⟩).inputs.lines[2] = ⟨1, 0x7E, true⟩ :: []) ∧
      (standing (s (.inFrame [4] 999) ⟨1, 0, true⟩) = [] ∧ 999 + 1 ≤ 1000) ∧
      (standing (s (.inFrame [4] 1000) ⟨1, 0, true⟩) = [] ∧ 1000 < 1000 + 1) ∧
      (standing (s (.inFrame [4] 5) ⟨2, 0, false⟩) = [] ∧ 1 < (⟨2, 0, false⟩ : LineByte).wait) ∧
      (standing ready = [] ∧ ready.inputs.lines[2] = []) ∧
      (({ Lane.reset with arrived := some ⟨0, 0x7E, true⟩ } : Lane).arrived = some ⟨0, 0x7E, true⟩) := by decide

theorem test_witness_filters :
    ready.inputs.seated.level = true ∧ State.reset.inputs.seated.level = false ∧
      ready.inputs.abortN.level = true := by decide

theorem test_witness_refused_requests :
    (0 : Byte).toNat = 0 ∧ 20 < (21 : Byte).toNat ∧ (1 ≤ (1 : Byte).toNat ∧ (1 : Byte).toNat ≤ 20) ∧
      (20 : Byte).toNat ≤ 20 := by decide

/-- R192: filler, the READ_REGION reply of a region that is not valid from byte 5 on, and filler behind it. -/
theorem test_hsdo_bytes :
    (after (.readRegion 1) ready).map (fun w => (List.range 18).map (w.port.hsdo 5))
        = some [0, 0, 0, 0, 0, 8, 0, 0, 7, 0, 0, 0, 0, 0, 0, 0, 0, 0] ∧
      (after (.readRegion 8) ready).map (fun w => (List.range 6).map (w.port.hsdo 1)) = some [0, 8, 1, 0, 0, 0] ∧
      (after .chainReset State.reset).map (fun w => (List.range 3).map (w.port.hsdo 0)) = some [0, 0, 0] := by decide

/-- A RUNNING lane 0 with one record. -/
def posted (r : StepRecord) : State := withLane ready 0 { Lane.reset with run := .running, queue := [r] }

theorem test_witness_admission :
    (let r := { stepA with connections := [⟨10, .hi, .leader⟩, ⟨10, .lo, .leader⟩] };
      let s := posted r;
      let l := s.work.lane 0;
      l.run = .running ∧ l.cur = none ∧ l.frozen = false ∧ l.queue = r :: [] ∧ r.flags.fused = false ∧
        admissionCheck s.fix 0 r = .error .duplicate ∧ r.origin = .host ∧ l.pendingHold = false ∧ s.work.rested ∧
        s.work.results.length < 128) ∧
    (let r := { stepA with waitToken := some 31 };
      let s := posted r;
      let l := s.work.lane 0;
      l.run = .running ∧ l.cur = none ∧ l.frozen = false ∧ l.queue = r :: [] ∧ r.flags.fused = false ∧
        admissionCheck s.fix 0 r = .ok [(10, 0), (11, 1)] ∧ r.waitToken = some 31 ∧ s.work.tokens[31] = none ∧
        s.work.rested) ∧
    (let s := withChain (posted stepA) { idleChain with queue := List.replicate 62 (.opn 1) };
      let l := s.work.lane 0;
      l.run = .running ∧ l.cur = none ∧ l.frozen = false ∧ l.queue = stepA :: [] ∧ stepA.flags.fused = false ∧
        admissionCheck s.fix 0 stepA = .ok [(10, 0), (11, 1)] ∧ stepA.waitToken = none ∧ s.work.calm ∧
        entriesWf s.work.nodes.entries ∧ (∀ p ∈ [(10, (0 : Fin 20)), (11, 1)], s.work.node p.1 = .reset) ∧
        2 ≤ s.work.chain.freeSlots ∧ l.tx.length < 32) := by decide

theorem test_witness_admission_unmarked :
    let s := withChain (posted stepA) { idleChain with queue := List.replicate 62 (.opn 1) }
    ∀ m, (s.work.node m).waiter ≠ some 0 := by
  intro s m
  have marks : (s.work.node m).waiter = none := rfl
  simp [marks]

theorem test_witness_settle :
    let s := fun ch : Channel => withLane ready 0 { working (cur .settle) with c0 := ch }
    let up := fun cap minimum : Nat => { Channel.startUp ⟨1000, 0⟩ false cap minimum with due := true }
    ((s run).work.rested ∧ ((s run).work.lane 0).cur = some (cur .settle) ∧ (cur .settle).phase = .settle ∧
      (cur .settle).step.flags.fused = false ∧ (cur .settle).step.sourceDelay ≠ 0 ∧
      ((s run).fix.lanes[0]).lineMode = .auto) ∧
    (let ch := ((s run).work.lane 0).c0;
      ch.counting = true ∧ ch.due = true ∧ ch.adaptive = false) ∧
    (let v := { s (up 600 0) with inputs := { ready.inputs with stable := ready.inputs.stable.set 0 ⟨true, true, false⟩ } };
      let ch := (v.work.lane 0).c0;
      ch.counting = true ∧ ch.due = true ∧ ch.adaptive = true ∧ ch.minimum ≤ ch.count ∧
        (v.inputs.stable[0]).level = true) ∧
    (let ch := ((s (up 0 5)).work.lane 0).c0;
      ch.counting = true ∧ ch.due = true ∧ ch.adaptive = true ∧ ¬ ch.minimum ≤ ch.count ∧ ch.count = ch.cap) ∧
    (let ch := ((s (up 600 5)).work.lane 0).c0;
      ch.counting = true ∧ ch.due = true ∧ ch.adaptive = true ∧ ¬ ch.minimum ≤ ch.count ∧ ch.count ≠ ch.cap) := by
  decide

theorem test_witness_source_and_gate :
    let quiet := { cur .source with step := { stepA with flags := ⟨false, true, false, false, false⟩ } }
    let s := fun c : CurStep => withLane ready 0 { working c with c1 := run, c2 := run }
    ((s (cur .source)).work.rested ∧ ((s (cur .source)).work.lane 0).cur = some (cur .source) ∧
      (cur .source).step.flags.fused = false ∧ ((s (cur .source)).fix.lanes[0]).lineMode = .auto ∧
      (cur .source).phase = .source ∧ ((s (cur .source)).work.lane 0).c1.expiring = true ∧
      (cur .source).step.postToken = none ∧ (cur .source).step.gateWidth ≠ 0 ∧
      (cur .source).step.flags.quiet = false) ∧
    ((s quiet).work.rested ∧ ((s quiet).work.lane 0).cur = some quiet ∧ quiet.phase = .source ∧
      quiet.step.flags.quiet = true ∧ quiet.step.postToken = none ∧ quiet.step.gateWidth ≠ 0 ∧
      (0 : LaneId) ∉ (s quiet).work.chain.holds ∧ (s quiet).work.chain.inflight = [] ∧
      (s quiet).work.chain.shift = none) ∧
    (withChain (s quiet) { idleChain with shift := some ⟨.abandoned, 1001⟩ }).work.chain.shift ≠ none ∧
    ((s (cur .gate)).work.rested ∧ ((s (cur .gate)).work.lane 0).cur = some (cur .gate) ∧ (cur .gate).phase = .gate ∧
      ((s (cur .gate)).work.lane 0).c2.expiring = true ∧ (cur .gate).leader.held = none) := by decide

/-- A post token free or posted, a gate width of 0, and a held RESULT that passes or starts the next attempt. -/
theorem test_witness_source_forms :
    let s := fun c : CurStep => withLane ready 0 { working c with c1 := run, c2 := run }
    let posting := { cur .source with step := { stepA with postToken := some (31, 9), gateWidth := 0 } }
    let held := fun low : Option Int =>
      { cur .gate with step := { stepA with low := low }, leader := { SideState.start with held := some ⟨5, .ok⟩ } }
    let outcome := fun c : CurStep => (evaluateReading (ready.fix.lanes[0]) c.step.low c.step.high ⟨5, .ok⟩).2.2
    (((s posting).work.lane 0).c1.expiring = true ∧ posting.step.postToken = some (31, 9) ∧
        posting.step.gateWidth = 0 ∧ posting.leader.held = none ∧ (s posting).work.tokens[31] = none ∧
        (s posting).work.waitingLanes 31 = []) ∧
      (let w : Work := { (s posting).work with tokens := (s posting).work.tokens.set 31 (some (.unit 2, 5)) };
        w.tokens[31] ≠ none) ∧
      ((held none).leader.held = some ⟨5, .ok⟩ ∧ outcome (held none) ≠ .fail ∧ (held none).step.origin = .host ∧
        ((s (held none)).work.lane 0).frozen = false ∧ (s (held none)).work.nodes.order = []) ∧
      (outcome (held (some 6)) = .fail ∧ (held (some 6)).attempt ≠ (held (some 6)).step.repeats ∧
        (held (some 6)).step.flags.adaptive = false ∧ (held (some 6)).step.settle ≠ 0) := by decide

/-- Lane 0 leads lane 1 through its FUSED step, in AUTO mode, with C1, C2 and C3 of the leader and C1 and C2 of the
follower run out. -/
def leading (c : CurStep) : State :=
  withLane (withLane ready 0 { working c with c1 := run, c2 := run, c3 := run }) 1
    { Lane.reset with run := .following, remembered := some .paused, frozen := true, c1 := run, c2 := run }

/-- The FUSED step of `leading` in a phase. -/
def curP (p : StepPhase) : CurStep := { curF none with phase := p }

theorem test_witness_pairs :
    let r := { curP .readyWait with leader := { SideState.start with ready := true } }
    ((leading r).work.rested ∧ ((leading r).work.lane 0).cur = some r ∧ r.step.flags.fused = true ∧
        r.phase = .readyWait ∧ (0 : Byte).toNat = r.attempt ∧ r.step.sourceDelay ≠ 0 ∧ r.leader.ready = true ∧
        r.follower.ready = false ∧ ((leading r).work.lane 1).run = .following) ∧
      ((curP .source).phase = .source ∧ ((leading (curP .source)).work.lane 0).c1.expiring = true ∧
        (curP .source).step.postToken = none ∧ (curP .source).step.gateWidth ≠ 0 ∧
        (curP .source).step.flags.quiet = false) ∧
      ((curP .gate).phase = .gate ∧ ((leading (curP .gate)).work.lane 0).c2.expiring = true ∧
        (curP .gate).leader.held = none) := by decide

/-- R130, R141: the lines of both lanes, and which of the follower's C1 and C2 counts, at the beginning of SOURCE by the
follower's READY, at C1's expiry, with a gate width of 0, and at C2's expiry. -/
theorem test_pairs_follow :
    let side := fun (l : Lane) => [l.src, l.gate, l.c1.counting, l.c2.counting]
    let both := fun (i : Instr) (c : CurStep) => (after i (leading c)).map fun w => [side (w.lane 0), side (w.lane 1)]
    let r := { curP .readyWait with leader := { SideState.start with ready := true } }
    let z := { curP .source with step := { stepF with gateWidth := 0 } }
    both (.ready 1 7 0) r = some [[true, false, true, true], [true, false, true, true]] ∧
      both (.sourceDelayExpiry 0) (curP .source) = some [[true, true, false, true], [true, true, false, true]] ∧
      both (.sourceDelayExpiry 0) z = some [[true, false, false, false], [true, false, false, false]] ∧
      both (.gateExpiry 0) (curP .gate) = some [[true, false, true, false], [true, false, true, false]] := by decide

/-- R51, R130: a QUIET step of the pair waits in SOURCE, and quiet begins GATE on both lanes. -/
theorem test_pairs_wait_for_quiet :
    let c := { curP .source with step := { stepF with flags := ⟨true, true, false, false, false⟩ } }
    let s := withChain (leading c) { idleChain with shift := some ⟨.abandoned, 1000⟩ }
    let held := (after (.sourceDelayExpiry 0) s).getD s.work
    let quiet := (after .shiftAbandonedEnd { s with work := held }).getD held
    (held.chain.holds = [0] ∧ (held.lane 0).gate = false ∧ (held.lane 1).c2 = run ∧ (held.lane 1).c1.counting = false) ∧
      ((quiet.lane 0).gate = true ∧ (quiet.lane 1).gate = true ∧ (quiet.lane 1).c2 = (quiet.lane 0).c2) := by decide

/-- Lane 0 waits in SOURCE with its quiet hold, behind an abandoned shift that ends now, then behind the last close. -/
theorem test_witness_quiet_report :
    let s := fun c : Chain => withChain (at' .source) { c with holds := [0] }
    (let v := s { idleChain with shift := some ⟨.abandoned, 1000⟩ };
      v.work.rested ∧ v.work.chain.holds = [0] ∧ (v.work.lane 0).cur = some (cur .source) ∧
        (cur .source).phase = .source ∧ (cur .source).step.flags.fused = false ∧
        (cur .source).step.postToken = none ∧ (cur .source).step.gateWidth ≠ 0 ∧
        (v.fix.lanes[0]).lineMode = .auto ∧ v.work.chain.shift = some ⟨.abandoned, 1000⟩ ∧
        reached 1000 v.clock.time = true ∧ v.work.chain.inflight = []) ∧
    (let v := withNode (s { idleChain with inflight := [(.close 5, 1000)] }) 5 ⟨.closing, some 0, .manual, none, false, none⟩;
      v.work.calm ∧ v.work.chain.inflight = [(.close 5, 1000)] ∧ v.work.chain.shift = none ∧
        (v.work.node 5).phase = .closing ∧ (∀ a, (v.work.node 5).holder ≠ .lane a) ∧ (v.work.node 5).due = false) := by
  decide

theorem test_witness_reading :
    let meets := fun c : CurStep =>
      let s := withLane ready 0 (working c)
      let l := s.work.lane 0
      readingFlagOf 0 = some .ok ∧ (0 : Byte).toNat = c.attempt ∧ l.run ≠ .following ∧ l.cur = some c ∧
        c.phase = .resultWait ∧ c.step.flags.fused = false ∧ c.leader.reading = none ∧
        (c.step.origin = .unit → l.tx.length < 32) ∧ l.frozen = false ∧ s.work.nodes.order = [] ∧ s.work.results.length < 128 ∧
        s.work.rested ∧ l.tx.length < 32 ∧ (s.fix.lanes[0]).lineMode = .auto
    let outcome := fun c : CurStep => (evaluateReading (ready.fix.lanes[0]) c.step.low c.step.high ⟨5, .ok⟩).2.2
    let pass := cur .resultWait
    let fail := { pass with step := { stepA with low := some 6 } }
    let last := { pass with step := { stepA with low := some 6, repeats := 0, origin := .unit } }
    (meets pass ∧ outcome pass ≠ .fail) ∧ (meets last ∧ outcome last = .fail ∧ last.attempt = last.step.repeats) ∧
      meets fail ∧ outcome fail = .fail ∧ fail.attempt ≠ fail.step.repeats ∧ fail.step.flags.adaptive = false ∧
      fail.step.settle ≠ 0 := by decide

theorem test_witness_watch :
    let s := fun p => withLane ready 0 { working (cur p) with c3 := run }
    (((s .tokenWait).work.lane 0).cur = some (cur .tokenWait) ∧ ((s .tokenWait).work.lane 0).c3.expiring = true ∧
      (cur .tokenWait).step.flags.fused = false ∧ (cur .tokenWait).step.origin = .host ∧
      ((s .tokenWait).work.lane 0).frozen = false ∧ ((s .tokenWait).work.lane 0).pendingHold = false ∧
      (s .tokenWait).work.results.length < 128 ∧ (s .tokenWait).work.rested) ∧
    ((cur .readyWait).phase = .readyWait ∧ (s .readyWait).work.nodes.order = [] ∧
      ((s .readyWait).work.lane 0).tx.length < 32 ∧ ((s .readyWait).work.lane 0).c3.expiring = true) := by decide

/-- R29, R32: lane 0's two nodes linger until 3,000, or with a linger time of 0 are opened at once. -/
theorem test_timeout_releases :
    let s := fun linger : Nat =>
      let s := withLane ready 0 { working (cur .readyWait) with c3 := run }
      { s with
        fix := { s.fix with lanes := s.fix.lanes.set 0 { LaneConfig.reset with linger := linger } }
        work :=
          { s.work with
            nodes := ⟨[(10, ⟨.closed, some 0, .lane 0, none, false, none⟩),
              (11, ⟨.closed, some 1, .lane 0, none, false, none⟩)], [(9, 2999)], [], 3⟩ } }
    let ended := fun linger => (after (.timeout 0) (s linger)).map fun w => (w.nodes.linger, w.chain.queue)
    ((s 0).work.calm ∧ entriesWf (s 0).work.nodes.entries ∧ ((cur .readyWait).nodes.map (·.1)).Nodup ∧
        ∀ p ∈ (cur .readyWait).nodes, ((s 0).work.node p.1).phase = .closed ∧ ((s 0).work.node p.1).holder = .lane 0 ∧
          ((s 0).work.node p.1).target = none ∧ ((s 0).work.node p.1).due = false) ∧
      ended 2000 = some ([(9, 2999), (10, 3000), (11, 3000)], []) ∧
      ended 0 = some ([(9, 2999)], [.opn 10, .opn 11]) := by decide

/-- Lane 0 RUNNING with the FUSED step at its head, and lane 1 enabled and in a run state. -/
def fusing (r : RunState) : State :=
  let s := withLane (posted stepF) 1 { Lane.reset with run := r }
  { s with fix := { s.fix with lanes := s.fix.lanes.set 1 { LaneConfig.reset with enabled := true } } }

theorem test_witness_fused_admission :
    (let s := fusing .halted;
      s.work.rested ∧ (s.work.lane 0).run = .running ∧ (s.work.lane 0).cur = none ∧ (s.work.lane 0).frozen = false ∧
        (s.work.lane 0).queue = stepF :: [] ∧ stepF.flags.fused = true ∧
        admissionCheck s.fix 0 stepF = .ok [(10, 0), (11, 1), (12, 5)] ∧ (s.work.lane 1).run ≠ .running ∧
        (s.work.lane 1).run ≠ .paused ∧ (s.work.lane 1).run ≠ .stopped) ∧
    (let s := fusing .paused;
      (s.work.lane 1).cur = none ∧ (s.work.lane 1).run = .paused ∧ stepF.waitToken = some 31 ∧
        s.work.tokens[31] = none) := by decide

theorem test_witness_fused_reading :
    let s := fun c => withLane (withLane ready 0 (working c)) 1
      { Lane.reset with run := .following, remembered := some .paused, frozen := true }
    let c := curF (some ⟨5, .ok⟩)
    (readingFlagOf 0 = some .ok ∧ (0 : Byte).toNat = c.attempt ∧ ((s c).work.lane 1).run = .following ∧
      ((s c).work.lane 0).cur = some c ∧ c.phase = .resultWait ∧ c.step.flags.fused = true ∧
      c.follower.reading = none) ∧
    ((curF none).leader.reading = none ∧ (s (curF none)).work.rested) ∧
    (c.leader.reading = some ⟨5, .ok⟩ ∧ ((s c).work.lane 1).remembered = some .paused ∧ c.step.origin = .host ∧
      ((s c).work.lane 0).frozen = false ∧ ((s c).work.lane 0).pendingHold = false ∧ (s c).work.nodes.order = [] ∧
      (s c).work.results.length < 128 ∧
      (evaluateReading (ready.fix.lanes[0]) none none ⟨5, .ok⟩).2.2 = .pass ∧
      (evaluateReading (ready.fix.lanes[1]) none none ⟨6, .ok⟩).2.2 = .pass) := by decide

/-- R102, R142, R143: a FAIL before the last attempt sends SETUP on both links, and C3's expiry CANCEL; SRC of both lanes
falls, and after TIMEOUT the follower is PAUSED again. -/
theorem test_pair_repeats_and_times_out :
    let lit := fun c => { leading c with
      work := ((leading c).work.onLane 0 fun l => { l with src := true }).onLane 1 fun l => { l with src := true } }
    let c := { curF (some ⟨5, .ok⟩) with step := { stepF with low := some 6 } }
    let again := after (.result 1 7 0 6 0) (lit c)
    let late := after (.timeout 0) (lit (curF (some ⟨5, .ok⟩)))
    let lanes := fun (w : Work) => [w.lane 0, w.lane 1]
    (c.step.flags.adaptive = false ∧ c.step.settle ≠ 0 ∧ c.attempt ≠ c.step.repeats ∧
        (evaluateReading (ready.fix.lanes[0]) (some 6) none ⟨5, .ok⟩).2.2 = .fail ∧
        ((lit c).work.lane 0).c3.expiring = true ∧ (lit c).work.nodes.order = []) ∧
      again.map (fun w => (lanes w).map fun l => (l.src, l.tx))
        = some [(false, [.setup 7 1 1 2 3]), (false, [.setup 7 1 1 2 3])] ∧
      late.map (fun w => (lanes w).map fun l => (l.src, l.tx, l.c1.counting, l.run))
        = some [(false, [.cancel 7 0], false, .halted), (false, [.cancel 7 0], false, .paused)] ∧
      late.map (fun w => w.results.map (·.follower)) = some [some (-8388608, none)] := by decide

/-- R143, R166: both values stand in the record, and the follower is PAUSED again. -/
theorem test_fused_record :
    let w := after (.result 1 7 0 6 0)
      (withLane (withLane ready 0 (working (curF (some ⟨5, .ok⟩)))) 1
        { Lane.reset with run := .following, remembered := some .paused, frozen := true })
    w.map (fun w => w.results.map (·.value)) = some [5] ∧
      w.map (fun w => w.results.map (·.follower)) = some [some (6, some 6)] ∧
      w.map (fun w => (w.lane 1).run) = some .paused := by decide

theorem test_witness_safety :
    ready.work.rested ∧ (∀ n : LaneId, (ready.work.lane n).cur = none) ∧ ready.inputs.abortN.level = true ∧
      ready.inputs.seated.level = true ∧ State.reset.inputs.seated.level = false ∧
      State.reset.work.rested ∧ (∀ n : LaneId, (State.reset.work.lane n).cur = none) ∧
      ({ ready with inputs := { ready.inputs with abortN := ⟨false, false, false⟩ } } : State).inputs.abortN.level
        = false := by decide

/-- A kept FUSED step on lane 0 and a step in CLAIM on lane 2, its mark on node 10, with lane 3 waiting in DELIVER. -/
def keeping : Work :=
  let w := ((ready.work.setLane 0 (working { curF none with phase := .fuseWait })).setLane 2
    (working (cur .claim))).setLane 3 (working (cur .deliver))
  { w with
    nodes := ⟨[(10, ⟨.closed, some 5, .lane 1, none, false, some 2⟩)], [], [2], 3⟩
    results := List.replicate 128 ((cur .deliver).toRecord 1 .pass) }

theorem test_witness_safety_keeps :
    keeping.rested ∧ entriesWf keeping.nodes.entries ∧ keeping.chain.waiting = [] ∧ keeping.dueNodes = [] ∧
      (∀ (n : LaneId) (c : CurStep), (keeping.lane n).cur = some c →
        c.phase = .none ∨ c.phase = .fuseWait ∨ c.phase = .tokenWait ∨ c.phase = .claim ∨
          (c.phase = .deliver ∧ 128 ≤ keeping.results.length)) ∧
      keeping.nodes.order = [2] ∧ (keeping.lane 2).cur = some (cur .claim) := by
  have full : 128 ≤ keeping.results.length := by simp [keeping]
  have phases : ∀ n : LaneId, ∀ c ∈ (keeping.lane n).cur,
      c.phase = .fuseWait ∨ c.phase = .claim ∨ c.phase = .deliver := by decide
  refine ⟨by decide, by decide, by decide, by decide, fun n c h => ?_, by decide, by decide⟩
  rcases phases n c h with h | h | h <;> simp [h, full]

/-- R145, R185: the fused step of lane 0 is delivered ABORTED, both lanes are HELD, and lane 1 is no longer frozen. -/
theorem test_abort_of_pair :
    let s := withLane (withLane ready 0 (working (curF none))) 1
      { Lane.reset with run := .following, remembered := some .paused, frozen := true }
    (s.work.rested ∧ (curF none).phase.pastClaim = true ∧ (curF none).step.origin = .host ∧
        (∀ m : LaneId, m ≠ 0 → (s.work.lane m).cur = none) ∧ (∀ m : LaneId, (s.work.lane m).tx.length < 32) ∧
        (s.work.lane 0).frozen = false ∧ s.work.nodes.order = [] ∧ s.work.results.length < 128) ∧
      (after .abortAll s).map (fun w => w.results.map (·.verdict)) = some [.aborted] ∧
      (after .abortAll s).map (fun w => ((w.lane 0).run, (w.lane 1).run)) = some (.held, .held) ∧
      (after .abortAll s).map (fun w => ((w.lane 1).remembered, (w.lane 1).frozen, (w.lane 1).tx))
        = some (none, false, [.cancel 7 0]) := by decide

theorem test_witness_abort_step :
    (cur .gate).step.flags.fused = false ∧ ((at' .gate).work.lane 0).cur = some (cur .gate) ∧
      ((at' .gate).work.lane 0).tx.length < 32 := by decide

/-- R202: a FUSED step in RESULT_WAIT sends its CANCEL on both links, one in DELIVER sends none, and a list of 32 messages
takes no more. -/
theorem test_clear_cancels_pairs :
    let done := List.replicate 32 (UnitMessage.done 1 .pass)
    let s := fun tx => withLane (withLane (withLane ready 0 (working (curF none))) 1
      { Lane.reset with run := .following, remembered := some .paused, frozen := true, tx := tx }) 2
      (working (cur .deliver))
    let lists := fun tx => (after .clear (s tx)).map fun w => ((w.lane 0).tx, (w.lane 1).tx, (w.lane 2).tx, (w.lane 3).tx)
    lists [.accept 9] = some ([.cancel 7 0], [.accept 9, .cancel 7 0], [], []) ∧
      lists done = some ([.cancel 7 0], done, [], []) := by decide

theorem test_witness_clear :
    entriesWf ready.work.nodes.entries ∧ ready.work.chain.state = .ready ∧
      State.reset.work.chain.state ≠ .ready ∧ entriesWf State.reset.work.nodes.entries := by decide

end Sys2Proof.Tests
end

section
/-! PROOFS, family 00_scope.md. What one command may write besides the blocks of work, and what one idle clock of CLKIN
does. -/

namespace Sys2Proof.Machine

/-! ### What a command writes -/

/-- The five events of the filtered input pins (R126, R177, R179). -/
def IsPinEvent (i : Instr) : Prop :=
  i = .seatingChangeUnseated ∨ i = .seatingChangeSeated ∨ i = .abortNEdge ∨ i = .abortNRise ∨
    ∃ n b, i = .stableChange n b

/-- The states that a command can leave: any command may write the blocks of work, and besides them a command writes
only what its own constructor here names. -/
inductive Writes (s : State) : Instr → State → Prop where
  | hardReset (t : State) : Writes s .hardReset t
  | blocks (i : Instr) (v : Work) : Writes s i { s with work := v }
  | regions (region : Byte) (start size offset : BitVec 16) (rs : Vector Region 8) (v : Work) :
      Writes s (.loadRegion region start size offset) { s with fix := { s.fix with regions := rs }, work := v }
  | lanes (lane en fa ta : Byte) (gain : BitVec 16) (offset : BitVec 24) (linger : BitVec 16) (low mode : Byte)
      (ls : Vector LaneConfig 4) (v : Work) :
      Writes s (.configLane lane en fa ta gain offset linger low mode)
        { s with fix := { s.fix with lanes := ls }, work := v }
  | fixture (count close release : BitVec 16) (nodeCount closeTime releaseTime : Nat) (v : Work) :
      Writes s (.fixtureConfig count close release)
        { s with fix := { s.fix with nodeCount, closeTime, releaseTime }, work := v }
  | masks (operand : Byte) (masks : BitVec 6) (v : Work) :
      Writes s (.setMask operand) { s with fix := { s.fix with masks }, work := v }
  | pins {i : Instr} (hi : IsPinEvent i) (inputs : Inputs) (v : Work) :
      Writes s i { s with inputs, work := v }

/-- A command that acts on the blocks of work alone writes nothing else. -/
theorem writes_onWork {s t : State} {f : Work → Work} (i : Instr) (h : onWork s f = .next t) : Writes s i t := by
  obtain rfl := Host.Outcome.next.inj h
  exact .blocks i _

theorem execLoadRegion_writes {a : Byte} {b c d : BitVec 16} {s t : State}
    (h : execLoadRegion a b c d s = .next t) : Writes s (.loadRegion a b c d) t := by
  unfold execLoadRegion at h
  split at h
  · exact writes_onWork _ h
  · split at h
    · obtain rfl := Host.Outcome.next.inj h
      exact .regions a b c d _ _
    · exact writes_onWork _ h

theorem execConfigLane_writes {lane en fa ta : Byte} {gain : BitVec 16} {offset : BitVec 24} {linger : BitVec 16}
    {low mode : Byte} {s t : State} (h : execConfigLane lane en fa ta gain offset linger low mode s = .next t) :
    Writes s (.configLane lane en fa ta gain offset linger low mode) t := by
  unfold execConfigLane at h
  dsimp only at h
  split at h
  · split at h
    · obtain rfl := Host.Outcome.next.inj h
      exact .lanes _ _ _ _ _ _ _ _ _ _ _
    · exact writes_onWork _ h
  · exact writes_onWork _ h

theorem execFixtureConfig_writes {a b c : BitVec 16} {s t : State} (h : execFixtureConfig a b c s = .next t) :
    Writes s (.fixtureConfig a b c) t := by
  unfold execFixtureConfig at h
  split at h
  · exact writes_onWork _ h
  · split at h
    · exact writes_onWork _ h
    · obtain rfl := Host.Outcome.next.inj h
      exact .fixture a b c _ _ _ _

theorem execSetMask_writes {a : Byte} {s t : State} (h : execSetMask a s = .next t) : Writes s (.setMask a) t := by
  unfold execSetMask at h
  split at h
  · exact writes_onWork _ h
  · obtain rfl := Host.Outcome.next.inj h
    exact .masks a _ _

theorem execSeatingChangeUnseated_writes {s t : State} (h : execSeatingChangeUnseated s = .next t) :
    Writes s .seatingChangeUnseated t := by
  unfold execSeatingChangeUnseated at h
  split at h <;> obtain rfl := Host.Outcome.next.inj h
  · exact .pins (.inl rfl) _ _
  · exact .blocks _ s.work

theorem execSeatingChangeSeated_writes {s t : State} (h : execSeatingChangeSeated s = .next t) :
    Writes s .seatingChangeSeated t := by
  unfold execSeatingChangeSeated at h
  split at h <;> obtain rfl := Host.Outcome.next.inj h
  · exact .blocks _ s.work
  · exact .pins (.inr (.inl rfl)) _ _

theorem execAbortNEdge_writes {s t : State} (h : execAbortNEdge s = .next t) : Writes s .abortNEdge t := by
  unfold execAbortNEdge at h
  split at h <;> obtain rfl := Host.Outcome.next.inj h
  · exact .pins (.inr (.inr (.inl rfl))) _ _
  · exact .blocks _ s.work

/-- What a command can write, over all commands: the ten that own something besides the blocks of work have a case of
their own, and every other one acts on the blocks alone. -/
theorem exec_writes {i : Instr} {s t : State} (h : exec i s = .next t) : Writes s i t := by
  cases i with
  | hardReset => exact .hardReset t
  | loadRegion => exact execLoadRegion_writes h
  | configLane => exact execConfigLane_writes h
  | fixtureConfig => exact execFixtureConfig_writes h
  | setMask => exact execSetMask_writes h
  | seatingChangeUnseated => exact execSeatingChangeUnseated_writes h
  | seatingChangeSeated => exact execSeatingChangeSeated_writes h
  | abortNEdge => exact execAbortNEdge_writes h
  | abortNRise =>
    obtain rfl := Host.Outcome.next.inj h
    exact .pins (.inr (.inr (.inr (.inl rfl)))) _ s.work
  | stableChange n b =>
    obtain rfl := Host.Outcome.next.inj h
    exact .pins (.inr (.inr (.inr (.inr ⟨n, b, rfl⟩)))) _ s.work
  | hostRequestAbandoned =>
    obtain rfl := Host.Outcome.next.inj h
    exact .blocks _ s.work
  | _ =>
    obtain rfl := Host.Outcome.next.inj h
    exact .blocks _ _

/-- Settles O5: each field changes only in the case of Writes whose command owns it. -/
theorem configurationAndTimeAreKept : Obligations.ConfigurationAndTimeAreKept := by
  intro i s t h hr
  cases exec_writes h with
  | hardReset => exact absurd rfl hr
  | blocks => simp
  | regions a b c d => exact ⟨fun hn => absurd rfl (hn a b c d), by simp⟩
  | lanes a b c d e f g k m => exact ⟨by simp, fun hn => absurd rfl (hn a b c d e f g k m), by simp⟩
  | fixture a b c => exact ⟨by simp, by simp, fun hn => absurd rfl (hn a b c), by simp⟩
  | masks a => exact ⟨by simp, by simp, by simp, fun hn => absurd rfl (hn a), by simp⟩
  | pins hi =>
    refine ⟨by simp, by simp, by simp, by simp, by simp, fun hu hs he ha hc => ?_⟩
    obtain hi | hi | hi | hi | ⟨n, b, hi⟩ := hi
    exacts [absurd hi hu, absurd hi hs, absurd hi he, absurd hi ha, absurd hi (hc n b)]

/-! ### One clock of CLKIN -/

theorem step_of_idle {s : State} (hp : s.pending = []) (hs : standing s = []) : step s = .next (advanceClock s) := by
  simp [step, hp, idle, hs]

theorem advanceClock_between {s : State} (h : s.clock.sub + 1 < 50) :
    advanceClock s = { clockLinks s with clock := ⟨s.clock.time, s.clock.sub + 1⟩ } :=
  if_pos h

/-- Every 50th clock is a tick of the time base (R1). -/
theorem advanceClock_tick {s : State} (h : 50 ≤ s.clock.sub + 1) :
    advanceClock s =
      { clockLinks s with
        clock := ⟨s.clock.time + 1, 0⟩
        inputs := (clockLinks s).inputs.tick
        work := (clockLinks s).work.tick (s.clock.time + 1) } :=
  if_neg (Nat.not_lt.mpr h)

/-- A clock leaves every block of work but the lanes and the relay chain engine. -/
theorem advanceClock_work (s : State) :
    (advanceClock s).work =
      { s.work with lanes := (advanceClock s).work.lanes, chain := (advanceClock s).work.chain } := by
  rcases Nat.lt_or_ge (s.clock.sub + 1) 50 with h | h
  · rw [advanceClock_between h]; rfl
  · rw [advanceClock_tick h]; rfl

/-- A clock leaves the configuration, the command queue and the race key. -/
theorem advanceClock_outside (s : State) :
    (advanceClock s).pending = s.pending ∧ (advanceClock s).race = s.race ∧ (advanceClock s).fix = s.fix := by
  rcases Nat.lt_or_ge (s.clock.sub + 1) 50 with h | h
  · rw [advanceClock_between h]; exact ⟨rfl, rfl, rfl⟩
  · rw [advanceClock_tick h]; exact ⟨rfl, rfl, rfl⟩

theorem advanceClock_lane_between {s : State} (h : s.clock.sub + 1 < 50) (n : LaneId) :
    (advanceClock s).work.lane n = (s.work.lane n).clockLink (arriving s.inputs.lines[n.val]) := by
  rw [advanceClock_between h]
  exact clockLinks_lane s n

theorem advanceClock_lane_tick {s : State} (h : 50 ≤ s.clock.sub + 1) (n : LaneId) :
    (advanceClock s).work.lane n =
      ((s.work.lane n).clockLink (arriving s.inputs.lines[n.val])).tick (s.clock.time + 1) := by
  rw [advanceClock_tick h, Work.lane_tick, clockLinks_lane]

/-- A clock moves a lane's channels and link, and nothing else of it. -/
theorem advanceClock_lane (s : State) (n : LaneId) :
    (advanceClock s).work.lane n =
      { s.work.lane n with
        c0 := ((advanceClock s).work.lane n).c0, c1 := ((advanceClock s).work.lane n).c1
        c2 := ((advanceClock s).work.lane n).c2, c3 := ((advanceClock s).work.lane n).c3
        rx := ((advanceClock s).work.lane n).rx, arrived := ((advanceClock s).work.lane n).arrived
        sending := ((advanceClock s).work.lane n).sending } := by
  rcases Nat.lt_or_ge (s.clock.sub + 1) 50 with h | h
  · rw [advanceClock_lane_between h, Lane.clockLink_eq]
  · rw [advanceClock_lane_tick h, Lane.clockLink_eq]; rfl

/-- Off the tick the channels stand still. -/
theorem advanceClock_channels_between {s : State} (h : s.clock.sub + 1 < 50) (n : LaneId) :
    ((advanceClock s).work.lane n).c0 = (s.work.lane n).c0 ∧ ((advanceClock s).work.lane n).c1 = (s.work.lane n).c1 ∧
      ((advanceClock s).work.lane n).c2 = (s.work.lane n).c2 ∧
      ((advanceClock s).work.lane n).c3 = (s.work.lane n).c3 := by
  rw [advanceClock_lane_between h, Lane.clockLink_eq]
  exact ⟨rfl, rfl, rfl, rfl⟩

theorem advanceClock_channels_tick {s : State} (h : 50 ≤ s.clock.sub + 1) (n : LaneId) :
    ((advanceClock s).work.lane n).c0 = (s.work.lane n).c0.tick (s.clock.time + 1) ∧
      ((advanceClock s).work.lane n).c1 = (s.work.lane n).c1.tick (s.clock.time + 1) ∧
      ((advanceClock s).work.lane n).c2 = (s.work.lane n).c2.tick (s.clock.time + 1) ∧
      ((advanceClock s).work.lane n).c3 = (s.work.lane n).c3.tick (s.clock.time + 1) := by
  rw [advanceClock_lane_tick h, Lane.clockLink_eq]
  exact ⟨rfl, rfl, rfl, rfl⟩

/-! ### The samples at a tick -/

/-- A filter's change is due when two samples agree on a level other than the filtered one (R126). -/
theorem Filter.sample_eq (f : Filter) (v : Bool) :
    f.sample v = ⟨v, f.level, decide (v = f.last ∧ v ≠ f.level)⟩ := by
  simp [Filter.sample, Bool.beq_eq_decide_eq, bne]

/-- STABLE is sampled at every tick (R126). -/
theorem Inputs.tick_stable (i : Inputs) (n : LaneId) :
    i.tick.stable[n.val] = i.stable[n.val].sample i.stablePins[n.val] := by
  unfold Inputs.tick
  dsimp only
  split <;> fin_cases n <;> rfl

/-- ABORT_N is sampled at every tick and SEATED at every 1,000th (R176, R179). -/
theorem Inputs.tick_eq (i : Inputs) :
    i.tick =
      { i with
        stable := i.tick.stable
        abortN := i.abortN.sample i.abortNPin
        seated := if i.seatedTicks + 1 < 1000 then i.seated else i.seated.sample i.seatedPin
        seatedTicks := if i.seatedTicks + 1 < 1000 then i.seatedTicks + 1 else 0 } := by
  unfold Inputs.tick
  dsimp only
  split <;> rfl

/-- Settles O2: the idle step is advanceClock, which off the tick moves the links alone and at a tick the filters, the
channels and the chain's marks too. -/
theorem idlePassesOneClock : Obligations.IdlePassesOneClock := by
  intro s hp hs sampled soon
  obtain ⟨hpend, hrace, hfix⟩ := advanceClock_outside s
  refine ⟨advanceClock s, step_of_idle hp hs, hpend.trans hp, hrace, hfix, fun h => ?_, fun h => ?_,
    advanceClock_work s, advanceClock_lane s⟩
  · have hb := advanceClock_between h
    exact ⟨by rw [hb], by rw [hb]; rfl, by rw [hb]; rfl, advanceClock_channels_between h⟩
  · have ht := advanceClock_tick h
    have hin : (advanceClock s).inputs = (clockLinks s).inputs.tick := by rw [ht]
    refine ⟨by rw [ht], fun n => ?_, ?_, by rw [ht]; rfl, advanceClock_channels_tick h⟩
    · simp only [hin, Inputs.tick_stable, Filter.sample_eq]; rfl
    · rw [hin, Inputs.tick_eq, Filter.sample_eq, Filter.sample_eq]; rfl

end Sys2Proof.Machine
end

section
/-! PROOFS, family 01_logical_node_regions.md. The region table, translation, the readouts and hard reset. -/

namespace Sys2Proof.Machine

/-! ### Operands -/

theorem regionOf_of_lt {b : Byte} (h : b.toNat < 8) : regionOf b = some ⟨b.toNat, h⟩ := dif_pos h

theorem regionOf_of_ge {b : Byte} (h : 8 ≤ b.toNat) : regionOf b = none := dif_neg (Nat.not_lt.mpr h)

theorem laneOf_of_val_eq {b : Byte} {n : LaneId} (h : n.val = b.toNat) : laneOf b = some n := by
  have hb : b.toNat < 4 := h ▸ n.isLt
  rw [laneOf, dif_pos hb]
  exact congrArg some (Fin.ext h.symm)

theorem laneOf_of_ge {b : Byte} (h : 4 ≤ b.toNat) : laneOf b = none := dif_neg (Nat.not_lt.mpr h)

theorem roundDown_eq (v : BitVec 16) : roundDown v = v.toNat / 8 * 8 := by
  unfold roundDown
  omega

/-! ### LOAD_REGION -/

theorem loadedRegion_zero (start offset : Nat) : loadedRegion start 0 offset = some ⟨false, 0, 0, 0⟩ := rfl

theorem loadedRegion_out_of_range {start size offset : Nat} (hz : size ≠ 0)
    (h : 4096 < size ∨ 65536 < start + size ∨ 4088 < offset) : loadedRegion start size offset = none := by
  rw [loadedRegion, if_neg hz, if_pos h]

theorem loadedRegion_in_range {start size offset : Nat} (hz : size ≠ 0) (hs : size ≤ 4096)
    (he : start + size ≤ 65536) (ho : offset ≤ 4088) :
    loadedRegion start size offset = some ⟨true, start, size, offset⟩ := by
  rw [loadedRegion, if_neg hz, if_neg (by omega)]

section LoadRegion
variable {region : Byte} {start size offset : BitVec 16}

theorem exec_loadRegion_format (s : State) (h : 8 ≤ region.toNat) :
    exec (.loadRegion region start size offset) s = .next { s with work := s.work.reply 0x07 .format [] } := by
  change execLoadRegion region start size offset s = _
  simp [execLoadRegion, regionOf_of_ge h]

theorem exec_loadRegion_refused (s : State) (h : region.toNat < 8)
    (hr : loadedRegion (start.toNat / 8 * 8) (size.toNat / 8 * 8) (offset.toNat / 8 * 8) = none) :
    exec (.loadRegion region start size offset) s =
      .next { s with work := s.work.reply 0x07 .regionRange [] } := by
  change execLoadRegion region start size offset s = _
  simp [execLoadRegion, regionOf_of_lt h, roundDown_eq, hr]

theorem exec_loadRegion_loaded (s : State) (h : region.toNat < 8) {r : Region}
    (hr : loadedRegion (start.toNat / 8 * 8) (size.toNat / 8 * 8) (offset.toNat / 8 * 8) = some r) :
    exec (.loadRegion region start size offset) s =
      .next
        { s with
          fix := { s.fix with regions := s.fix.regions.set region.toNat r }
          work := s.work.reply 0x07 .ok [] } := by
  change execLoadRegion region start size offset s = _
  simp [execLoadRegion, regionOf_of_lt h, roundDown_eq, hr]

end LoadRegion

/-- Settles O15: each clause is one outcome of loadedRegion on the rounded values. -/
theorem loadRegionReplacesOrRefuses : Obligations.LoadRegionReplacesOrRefuses := by
  intro s region start size offset st sz off refuse load
  refine ⟨exec_loadRegion_format s, fun h => ⟨fun hz => ?zero, fun hz hr => ?refused, fun hz hs he ho => ?replaced⟩⟩
  case zero => exact exec_loadRegion_loaded s h (by rw [show size.toNat / 8 * 8 = 0 from hz, loadedRegion_zero])
  case refused => exact exec_loadRegion_refused s h (loadedRegion_out_of_range hz hr)
  case replaced => exact exec_loadRegion_loaded s h (loadedRegion_in_range hz hs he ho)

/-! ### Translation -/

/-- The record that translation uses is the one of lowest number whose window holds the node (R9). -/
theorem translate_of_first {fix : Fixed} {l : Nat} {k : Fin 8} (hk : fix.regions[k.val].holds l = true)
    (hfirst : ∀ j : Fin 8, j < k → ¬ fix.regions[j.val].holds l = true) :
    translate fix l =
      if fix.regions[k.val].offset + (l - fix.regions[k.val].start) < fix.nodeCount then
        .ok (fix.regions[k.val].offset + (l - fix.regions[k.val].start))
      else .error .nodeRange := by
  have hfind : fix.regions.toList.find? (·.holds l) = some fix.regions[k.val] := by
    refine List.find?_eq_some_iff_getElem.mpr ⟨hk, k.val, by simp, by simp, fun j hj => ?_⟩
    simpa using hfirst ⟨j, hj.trans k.isLt⟩ hj
  simp only [translate, hfind, ← Nat.not_lt, ite_not]

theorem translate_unmapped {fix : Fixed} {l : Nat} (h : ∀ k : Fin 8, ¬ fix.regions[k.val].holds l = true) :
    translate fix l = .error .unmapped := by
  have hfind : fix.regions.toList.find? (·.holds l) = none := by
    refine List.find?_eq_none.mpr fun r hr => ?_
    obtain ⟨i, hi, rfl⟩ := Vector.mem_iff_getElem.mp (Vector.mem_toList_iff.mp hr)
    exact h ⟨i, hi⟩
  simp only [translate, hfind]

/-- Settles O16: the window is Region.holds, find? stops at the first region that has it, and a least one exists when
any does. -/
theorem translationTakesTheFirstMatchingRegion : Obligations.TranslationTakesTheFirstMatchingRegion := by
  intro fix l window matching
  have hw : ∀ k : Fin 8, fix.regions[k.val].holds l = true ↔ window k := fun k => Region.holds_iff _ l
  refine ⟨fun k hk => ?first, fun hnone => ?unmapped, fun hsome => ?least⟩
  case first =>
    obtain ⟨hin, hfirst⟩ := hk
    exact translate_of_first ((hw k).mpr hin) fun j hj hh => hfirst j hj ((hw j).mp hh)
  case unmapped => exact translate_unmapped fun k hh => hnone k ((hw k).mp hh)
  case least =>
    obtain ⟨k, hk, hleast⟩ := wellFounded_lt.has_min {k | window k} hsome
    exact ⟨k, hk, fun j hj hin => hleast j hin hj⟩

/-! ### Flag bytes and absent fields -/

theorem testBit_ofBits (bs : List Bool) (i : Nat) : (Bytes.ofBits bs).testBit i = bs.getD i false := by
  induction bs generalizing i with
  | nil => simp [Bytes.ofBits]
  | cons b bs ih =>
    cases i with
    | zero => cases b <;> simp [Bytes.ofBits, Nat.testBit_zero]
    | succ i =>
      have hhalf : (b.toNat + 2 * Bytes.ofBits bs) / 2 = Bytes.ofBits bs := by
        have := b.toNat_le
        omega
      rw [Bytes.ofBits, Nat.testBit_succ, hhalf, ih, List.getD_cons_succ]

/-- A flag byte shows its flags from bit 0 up, and 0 in every bit above them (R205). -/
theorem getLsbD_flagByte {bs : List Bool} (h : bs.length ≤ 8) (i : Nat) :
    (flagByte bs).getLsbD i = bs.getD i false := by
  rw [flagByte, byte, BitVec.getLsbD_ofNat, testBit_ofBits]
  by_cases hi : i < 8
  · simp [hi]
  · simp [hi, List.getElem?_eq_none (show bs.length ≤ i by omega)]

@[simp] theorem orFF_none : orFF none = 0xFF := rfl

@[simp] theorem orFF_some (k : Nat) : orFF (some k) = BitVec.ofNat 8 k := rfl

/-! ### The fields of the lane readout -/

section LaneReadout
variable (l : Lane) (n : LaneId) (stable : Bool)
open Bytes

theorem laneReadout_length : (laneReadout l n stable).length = 18 := rfl

@[simp] theorem laneReadout_run : at' (laneReadout l n stable) 0 = BitVec.ofNat 8 l.run.code := rfl

@[simp] theorem laneReadout_remembered :
    at' (laneReadout l n stable) 1 = orFF (l.remembered.map RunState.code) := rfl

@[simp] theorem laneReadout_phase : at' (laneReadout l n stable) 2 = BitVec.ofNat 8 l.phase.code := rfl

@[simp] theorem laneReadout_resume :
    at' (laneReadout l n stable) 3 = orFF ((l.cur.bind (·.resume)).map ResumePoint.code) := by
  rw [Option.map_bind]; rfl

@[simp] theorem laneReadout_tag : u16At (laneReadout l n stable) 4 = (l.tagAttempt.map (·.1)).getD 0 := u16_of16 _

@[simp] theorem laneReadout_attempt : at' (laneReadout l n stable) 6 = orFF (l.tagAttempt.map (·.2)) := rfl

theorem laneReadout_counting (i : Nat) :
    (at' (laneReadout l n stable) 7).getLsbD i =
      [l.c0.counting, l.c1.counting, l.c2.counting, l.c3.counting].getD i false :=
  getLsbD_flagByte (by simp) i

@[simp] theorem laneReadout_c0 : u16At (laneReadout l n stable) 8 = BitVec.ofNat 16 l.c0.count := u16_of16 _
@[simp] theorem laneReadout_c1 : u16At (laneReadout l n stable) 10 = BitVec.ofNat 16 l.c1.count := u16_of16 _
@[simp] theorem laneReadout_c2 : u16At (laneReadout l n stable) 12 = BitVec.ofNat 16 l.c2.count := u16_of16 _
@[simp] theorem laneReadout_c3 : u16At (laneReadout l n stable) 14 = BitVec.ofNat 16 l.c3.count := u16_of16 _

theorem laneReadout_lines (i : Nat) :
    (at' (laneReadout l n stable) 16).getLsbD i = [stable, l.src, l.gate].getD i false :=
  getLsbD_flagByte (by simp) i

@[simp] theorem laneReadout_number : at' (laneReadout l n stable) 17 = BitVec.ofNat 8 n.val := rfl

end LaneReadout

/-- A lane in ADMIT has no step in progress (R74). -/
theorem Lane.cur_of_inAdmit {l : Lane} (h : l.inAdmit = true) : l.cur = none := by
  simp only [Lane.inAdmit, Bool.and_eq_true, Option.isNone_iff_eq_none] at h
  obtain ⟨⟨⟨-, hcur⟩, -⟩, -⟩ := h
  exact hcur

theorem Lane.phase_code (l : Lane) :
    BitVec.ofNat 8 l.phase.code = if l.inAdmit then (1 : Byte) else BitVec.ofNat 8 l.curPhase.code := by
  unfold Lane.phase
  split <;> rfl

theorem Lane.tagAttempt_step {l : Lane} {c : CurStep} (h : l.cur = some c) :
    l.tagAttempt = some (c.step.tag, c.attempt) := by
  simp [Lane.tagAttempt, h]

theorem Lane.tagAttempt_inAdmit {l : Lane} {r : StepRecord} (h : l.inAdmit = true) (hr : l.queue.head? = some r) :
    l.tagAttempt = some (r.tag, 0) := by
  simp [Lane.tagAttempt, Lane.cur_of_inAdmit h, h, hr]

theorem Lane.tagAttempt_none {l : Lane} (hc : l.cur = none) (h : l.inAdmit = false) : l.tagAttempt = none := by
  simp [Lane.tagAttempt, hc, h]

/-! ### The fields of the node readout -/

section NodeReadout
variable (w : Work) (now : Time) (node : BitVec 16)
open Bytes

theorem nodeReadout_length : (nodeReadout w now node).length = 14 := rfl

@[simp] theorem nodeReadout_number : u16At (nodeReadout w now node) 0 = node := u16_of16 _

@[simp] theorem nodeReadout_phase :
    at' (nodeReadout w now node) 2 = BitVec.ofNat 8 (w.node node.toNat).phase.code := rfl

@[simp] theorem nodeReadout_bus :
    at' (nodeReadout w now node) 3 = orFF ((w.node node.toNat).bus.map Fin.val) := rfl

@[simp] theorem nodeReadout_holder :
    at' (nodeReadout w now node) 4 = BitVec.ofNat 8 (w.node node.toNat).holder.code := rfl

@[simp] theorem nodeReadout_target :
    at' (nodeReadout w now node) 5 = orFF ((w.node node.toNat).target.map Fin.val) := rfl

@[simp] theorem nodeReadout_waiter :
    at' (nodeReadout w now node) 6 = orFF ((w.node node.toNat).waiter.map Fin.val) := rfl

theorem nodeReadout_flags (i : Nat) :
    (at' (nodeReadout w now node) 7).getLsbD i =
      [(w.lingering node.toNat).isSome, (w.node node.toNat).due, w.chain.openQueued node.toNat,
        w.chain.closeQueued node.toNat].getD i false :=
  getLsbD_flagByte (by simp) i

@[simp] theorem nodeReadout_linger :
    u16At (nodeReadout w now node) 8 =
      BitVec.ofNat 16 (((w.lingering node.toNat).map (lingerLeft now)).getD 0) :=
  u16_of16 _

@[simp] theorem nodeReadout_order (i : Fin 4) :
    at' (nodeReadout w now node) (10 + i.val) = orFF (w.nodes.order[i.val]?.map Fin.val) := by
  fin_cases i <;> rfl

end NodeReadout

theorem ofNat_lingerLeft (now t : Time) :
    BitVec.ofNat 16 (lingerLeft now t) = if reached t now then 0 else BitVec.ofNat 16 (t - now).toNat := by
  unfold lingerLeft
  split <;> rfl

/-! ### The readout requests -/

theorem exec_readLane (s : State) {lane : Byte} {n : LaneId} (h : n.val = lane.toNat) :
    exec (.readLane lane) s =
      .next
        { s with
          work := s.work.reply 0x06 .ok (laneReadout (s.work.lane n) n (s.inputs.stable[n.val]).level) } := by
  change execReadLane lane s = _
  simp [execReadLane, laneOf_of_val_eq h]

theorem exec_readLane_format (s : State) {lane : Byte} (h : 4 ≤ lane.toNat) :
    exec (.readLane lane) s = .next { s with work := s.work.reply 0x06 .format [] } := by
  change execReadLane lane s = _
  simp [execReadLane, laneOf_of_ge h]

theorem exec_readNode (s : State) {node : BitVec 16} (h : node.toNat < 4096) :
    exec (.readNode node) s =
      .next { s with work := s.work.reply 0x0C .ok (nodeReadout s.work s.clock.time node) } := by
  change execReadNode node s = _
  rw [execReadNode, onWork_eq, if_neg (Nat.not_le.mpr h)]

theorem exec_readNode_format (s : State) {node : BitVec 16} (h : 4096 ≤ node.toNat) :
    exec (.readNode node) s = .next { s with work := s.work.reply 0x0C .format [] } := by
  change execReadNode node s = _
  rw [execReadNode, onWork_eq, if_pos h]

theorem exec_readRegion (s : State) {region : Byte} (h : region.toNat < 8) :
    exec (.readRegion region) s =
      .next { s with work := s.work.reply 0x08 .ok (regionReadout s.fix.regions[region.toNat]) } := by
  change execReadRegion region s = _
  simp [execReadRegion, regionOf_of_lt h]

theorem exec_readRegion_format (s : State) {region : Byte} (h : 8 ≤ region.toNat) :
    exec (.readRegion region) s = .next { s with work := s.work.reply 0x08 .format [] } := by
  change execReadRegion region s = _
  simp [execReadRegion, regionOf_of_ge h]

theorem regionReadout_eq (r : Region) :
    regionReadout r =
      [if r.valid then 1 else 0] ++ Bytes.of16 (BitVec.ofNat 16 r.start) ++ Bytes.of16 (BitVec.ofNat 16 r.size)
        ++ Bytes.of16 (BitVec.ofNat 16 r.offset) := by
  obtain ⟨valid, start, size, offset⟩ := r
  cases valid <;> rfl

/-- Settles O25, field by field through the lemmas on the readouts. -/
theorem readoutsShowTheState : Obligations.ReadoutsShowTheState := by
  intro s
  refine ⟨fun lane => ⟨exec_readLane_format s, fun n hn => ?lane⟩,
    fun node => ⟨exec_readNode_format s, fun hn => ?node⟩,
    fun region => ⟨exec_readRegion_format s, fun h => ?region⟩⟩
  case lane =>
    refine ⟨_, exec_readLane s hn, laneReadout_length .., laneReadout_run .., ?remembered, ?phase, ?resume,
      fun c hc => ?step, fun r ha hr => ?waiting, fun hc ha => ?neither, laneReadout_counting _ _ _,
      laneReadout_c0 .., laneReadout_c1 .., laneReadout_c2 .., laneReadout_c3 .., laneReadout_lines _ _ _, ?number⟩
    case remembered => rw [laneReadout_remembered]; cases (s.work.lane n).remembered <;> rfl
    case phase => rw [laneReadout_phase, Lane.phase_code]
    case resume => rw [laneReadout_resume]; cases (s.work.lane n).cur.bind (·.resume) <;> rfl
    case step => simp [Lane.tagAttempt_step hc]
    case waiting => simp [Lane.tagAttempt_inAdmit ha hr]
    case neither => simp [Lane.tagAttempt_none hc ha]
    case number => rw [laneReadout_number, hn, BitVec.ofNat_toNat, BitVec.setWidth_eq]
  case node =>
    refine ⟨_, exec_readNode s hn, nodeReadout_length .., nodeReadout_number .., nodeReadout_phase .., ?bus, ?holder,
      ?target, ?waiter, nodeReadout_flags _ _ _, fun t ht => ?lingering, fun ht => ?notLingering, fun i => ?order⟩
    case bus => rw [nodeReadout_bus]; cases (s.work.node node.toNat).bus <;> rfl
    case holder => rw [nodeReadout_holder]; cases (s.work.node node.toNat).holder <;> rfl
    case target => rw [nodeReadout_target]; cases (s.work.node node.toNat).target <;> rfl
    case waiter => rw [nodeReadout_waiter]; cases (s.work.node node.toNat).waiter <;> rfl
    case lingering =>
      rw [nodeReadout_linger, ht, Option.map_some, Option.getD_some, ofNat_lingerLeft]
    case notLingering => rw [nodeReadout_linger, ht]; rfl
    case order => rw [nodeReadout_order]; cases s.work.nodes.order[i.val]? <;> rfl
  case region => rw [exec_readRegion s h, regionReadout_eq]

/-! ### Hard reset -/

theorem exec_hardReset (s : State) :
    exec .hardReset s =
      .next
        { fix := Fixed.reset, clock := ⟨0, 0⟩
          inputs := Inputs.reset s.inputs.seatedPin s.inputs.abortNPin s.inputs.stablePins s.inputs.lines s.inputs.loop
          work := Work.reset, pending := s.pending, race := s.race } := rfl

theorem Fixed.reset_region (k : Fin 8) : Fixed.reset.regions[k.val] = ⟨false, 0, 0, 0⟩ :=
  Vector.getElem_replicate k.isLt

theorem Fixed.reset_lane (n : LaneId) :
    Fixed.reset.lanes[n.val] = ⟨false, .continue', .halt, 32768, 0, 2000, 0, .auto⟩ :=
  Vector.getElem_replicate n.isLt

@[simp] theorem Work.reset_lane (n : LaneId) : Work.reset.lane n = Lane.reset := Vector.getElem_replicate n.isLt

theorem Work.reset_token (k : Fin 32) : Work.reset.tokens[k.val] = none := Vector.getElem_replicate k.isLt

theorem Work.reset_notice (k : Fin 6) : Work.reset.notices[k.val] = 0 := Vector.getElem_replicate k.isLt

theorem Inputs.reset_stable (seatedPin abortNPin : Bool) (stablePins : Vector Bool 4)
    (lines : Vector (List LineByte) 4) (loop : BitVec 32) (n : LaneId) :
    (Inputs.reset seatedPin abortNPin stablePins lines loop).stable[n.val] = ⟨false, false, false⟩ :=
  Vector.getElem_replicate n.isLt

theorem Lane.reset_channel {ch : Channel} (h : ch ∈ [Lane.reset.c0, Lane.reset.c1, Lane.reset.c2, Lane.reset.c3]) :
    ch = .reset := by
  simpa [Lane.reset] using h

/-- Settles O24, block by block: the fields that are not plain values are read through the lemmas on the reset
state. -/
theorem hardResetRestoresEveryBlock : Obligations.HardResetRestoresEveryBlock := by
  intro s
  refine ⟨_, exec_hardReset s, rfl, ⟨Fixed.reset_region, Fixed.reset_lane, rfl, rfl, rfl, rfl⟩,
    ⟨fun _ => ⟨rfl, rfl⟩, rfl, rfl⟩, ⟨rfl, rfl, rfl, rfl, rfl, rfl, rfl, rfl, rfl⟩, fun n => ?lane,
    ⟨Work.reset_token, rfl, rfl, Work.reset_notice, rfl⟩, ⟨Inputs.reset_stable _ _ _ _ _, rfl, rfl, rfl⟩,
    rfl, rfl, rfl, rfl, rfl, rfl, rfl⟩
  case lane =>
    rw [Work.reset_lane]
    refine ⟨rfl, rfl, rfl, rfl, rfl, rfl, rfl, rfl, rfl, rfl, rfl, rfl, fun ch hch => ?_⟩
    rw [Lane.reset_channel hch]
    exact ⟨rfl, rfl, rfl, rfl, rfl, rfl, rfl⟩

end Sys2Proof.Machine
end

section
/-! PROOFS, family 02_the_node_map.md: the small changes that the part's operations are made of. -/

namespace Sys2Proof.Machine

/-! ### Edits -/

/-- Every step in progress has nodes with a property. -/
def Work.StepsHave (N : List (Nat × Fin 20) → Prop) (w : Work) : Prop :=
  ∀ (n : LaneId) (c : CurStep), (w.lane n).cur = some c → N c.nodes

/-- One change that an operation makes between two passes of the claim arbiter. No frame joins a queue: frames are
withdrawn, with both marks of a trigger, and waiting targets dropped. A node keeps its phase and bus, and a step that is
written has nodes with the property `N`. -/
inductive Work.Edit (N : List (Nat × Fin 20) → Prop) : Work → Work → Prop where
  | lane (w : Work) (n : LaneId) (l : Lane) (h : l.cur = (w.lane n).cur) : Edit N w (w.setLane n l)
  | cur (w : Work) (n : LaneId) (c : Option CurStep) (h : ∀ x, c = some x → N x.nodes) : Edit N w (w.setCur n c)
  | nodes (w : Work) (m : NodeMap)
      (h : entriesWf w.nodes.entries →
        entriesWf m.entries ∧
          ∀ i, (entryAt m.entries i).phase = (w.node i).phase ∧ (entryAt m.entries i).bus = (w.node i).bus) :
      Edit N w { w with nodes := m }
  | tokens (w : Work) (ts : Vector Token 32) : Edit N w { w with tokens := ts }
  | result (w : Work) (rs : List ResultRecord) (n : LaneId) : Edit N w { w with results := rs, lastDelivering := n }
  | raise (w : Work) (c : Cause) (h : c.source ≠ 0) : Edit N w (w.raise c)
  | wake (w : Work) : Edit N w { w with wake := true }
  | withdraw (w : Work) (f : Frame) : Edit N w (w.withdraw f)
  | dropWaiting (w : Work) (n : Nat) :
      Edit N w { w with chain := { w.chain with waiting := w.chain.waiting.filter fun p => p.1 != n } }
  | holds (w : Work) (hs : List LaneId) (off : Bool) :
      Edit N w { w with chain := { w.chain with holds := hs, holdOff := off } }

theorem Work.Edit.stepsHave {N : List (Nat × Fin 20) → Prop} {w v : Work} (h : w.Edit N v) (hw : w.StepsHave N) :
    v.StepsHave N := by
  cases h with
  | lane n l h =>
    intro m c hm
    by_cases hn : m = n
    · subst hn; exact hw m c (by simpa [h] using hm)
    · exact hw m c (by simpa [Work.lane_setLane_ne w _ hn] using hm)
  | cur n c h =>
    intro m x hm
    by_cases hn : m = n
    · subst hn; exact h x (by simpa using hm)
    · exact hw m x (by simpa [Work.lane_setCur_ne w _ hn] using hm)
  | _ => exact hw

/-- A chain of edits, of steps that all have nodes with the property. -/
def Work.Edits (N : List (Nat × Fin 20) → Prop) (w v : Work) : Prop :=
  w.StepsHave N → Relation.ReflTransGen (Work.Edit N) w v

namespace Editing

variable {N : List (Nat × Fin 20) → Prop}

theorem stepsHave_of_chain {w v : Work} (h : Relation.ReflTransGen (Work.Edit N) w v) (hw : w.StepsHave N) :
    v.StepsHave N := by
  induction h with
  | refl => exact hw
  | tail _ h ih => exact h.stepsHave ih

/-! #### Composition -/

theorem refl (w : Work) : w.Edits N w := fun _ => .refl

theorem single {w v : Work} (h : w.Edit N v) : w.Edits N v := fun _ => .single h

theorem trans {u v w : Work} (h : u.Edits N v) (k : v.Edits N w) : u.Edits N w := fun hu =>
  (h hu).trans (k (stepsHave_of_chain (h hu) hu))

theorem foldl {α : Type} (f : Work → α → Work) (h : ∀ (w : Work) (x : α), w.Edits N (f w x)) (xs : List α)
    (w : Work) : w.Edits N (xs.foldl f w) := by
  induction xs generalizing w with
  | nil => exact refl w
  | cons x xs ih => exact trans (h w x) (ih (f w x))

/-- The steps in progress may be assumed to have the property. -/
theorem assuming {w v : Work} (h : w.StepsHave N → w.Edits N v) : w.Edits N v := fun hw => h hw hw

/-! #### Lanes -/

theorem setLane (w : Work) (n : LaneId) (l : Lane) (h : l.cur = (w.lane n).cur) : w.Edits N (w.setLane n l) :=
  single (.lane w n l h)

theorem onLane (w : Work) (n : LaneId) (f : Lane → Lane) (h : (f (w.lane n)).cur = (w.lane n).cur) :
    w.Edits N (w.onLane n f) := setLane w n _ h

theorem setCur (w : Work) (n : LaneId) {c : CurStep} {ns : List (Nat × Fin 20)} (h : N ns)
    (hc : c.nodes = ns := by rfl) : w.Edits N (w.setCur n (some c)) :=
  single (.cur w n _ fun _ hx => Option.some.inj hx ▸ hc ▸ h)

theorem clearCur (w : Work) (n : LaneId) : w.Edits N (w.setCur n none) := single (.cur w n _ fun _ hx => by simp at hx)

theorem drive (w : Work) (e : Env) (n : LaneId) (src gate : Bool) : w.Edits N (w.drive e n src gate) := by
  unfold Work.drive; split
  · exact onLane w n _ rfl
  · exact refl w

theorem driveAll (w : Work) (e : Env) (ns : List LaneId) (src gate : Bool) : w.Edits N (w.driveAll e ns src gate) :=
  foldl _ (fun w n => drive w e n src gate) ns w

theorem startWatch (w : Work) (e : Env) (n : LaneId) (r : StepRecord) : w.Edits N (w.startWatch e n r) :=
  onLane w n _ rfl

theorem stopAll (w : Work) (n : LaneId) : w.Edits N (w.stopAll n) := onLane w n _ rfl

theorem stopStep (w : Work) (n : LaneId) (r : StepRecord) : w.Edits N (w.stopStep n r) := by
  unfold Work.stopStep; split
  · exact trans (stopAll w n) (onLane _ _ _ rfl)
  · exact stopAll w n

theorem startEach (w : Work) (ns : List LaneId) (f : Lane → Lane) (h : ∀ l, (f l).cur = l.cur) :
    w.Edits N (w.startEach ns f) := foldl _ (fun w n => onLane w n f (h _)) ns w

theorem endPair (w : Work) (n : LaneId) (r : StepRecord) : w.Edits N (w.endPair n r) := by
  unfold Work.endPair; split
  · exact onLane w _ _ (by split <;> rfl)
  · exact refl w

theorem unfreeze (w : Work) (n : LaneId) (r : StepRecord) : w.Edits N (w.unfreeze n r) := by
  unfold Work.unfreeze; split
  · exact onLane w _ _ rfl
  · exact refl w

/-! #### Causes and messages -/

theorem raise (w : Work) (c : Cause) (h : c.source ≠ 0) : w.Edits N (w.raise c) := single (.raise w c h)

theorem laneSource_ne (n : LaneId) : laneSource n ≠ 0 := fun h => by
  have := congrArg Fin.val h
  simp [laneSource] at this

theorem send (w : Work) (n : LaneId) (m : UnitMessage) : w.Edits N (w.send n m) := by
  unfold Work.send; split
  · exact onLane w n _ rfl
  · exact raise w _ (laneSource_ne n)

theorem sendAll (w : Work) (ns : List LaneId) (m : UnitMessage) : w.Edits N (w.sendAll ns m) :=
  foldl _ (fun w n => send w n m) ns w

theorem noteRemoval (w : Work) (e : Env) (n : LaneId) (a b : Nat) : w.Edits N (w.noteRemoval e n a b) := by
  unfold Work.noteRemoval; dsimp only; split
  · exact raise w _ (laneSource_ne n)
  · exact refl w

theorem raiseVerdict (w : Work) (g : LaneConfig) (n : LaneId) (v : Verdict) :
    w.Edits N (w.raiseVerdict g n v) := by
  have hfail : w.Edits N (if v = .fail then w.raise (.fail n) else w) := by
    split
    · exact raise w _ (laneSource_ne n)
    · exact refl w
  unfold Work.raiseVerdict; dsimp only; split
  · exact trans hfail (raise _ _ (laneSource_ne n))
  · exact hfail

theorem enterResult (w : Work) (n : LaneId) (r : ResultRecord) : w.Edits N (w.enterResult n r) := by
  have hin : w.Edits N { w with results := w.results ++ [r], lastDelivering := n } := single (.result w _ n)
  have hfirst : w.Edits N
      (if w.results.isEmpty then ({ w with results := w.results ++ [r], lastDelivering := n } : Work).raise .available
        else { w with results := w.results ++ [r], lastDelivering := n }) := by
    split
    · exact trans hin (raise _ _ (by decide))
    · exact hin
  unfold Work.enterResult; dsimp only; split
  · exact trans hfirst (raise _ _ (by decide))
  · exact hfirst

/-! #### The node map -/

theorem setNode (w : Work) (n : Nat) (x : NodeEntry) (hp : x.phase = (w.node n).phase)
    (hb : x.bus = (w.node n).bus) : w.Edits N (w.setNode n x) := by
  refine single (.nodes w _ fun h => ⟨entriesWf_putEntry h n x, fun i => ?_⟩)
  by_cases hi : i = n
  · subst hi; simp [hp, hb]
  · simp [entryAt_putEntry_ne _ x hi, Work.node]

theorem setDue (w : Work) (n : Nat) : w.Edits N (w.setDue n) := setNode w n _ rfl rfl

theorem onNodes (w : Work) (f : NodeEntry → NodeEntry) (h0 : f .reset = .reset)
    (hf : ∀ x, (f x).phase = x.phase ∧ (f x).bus = x.bus) : w.Edits N (w.onNodes f) :=
  single (.nodes w _ fun h => ⟨entriesWf_mapEntries h f, fun i => by
    rw [show entryAt _ i = f (w.node i) from entryAt_mapEntries h h0 i]; exact hf _⟩)

/-- The lists beside the entries may change freely. -/
theorem setLists (w : Work) (ls : List (Nat × Time)) (o : List LaneId) (k : LaneId) :
    w.Edits N { w with nodes := { w.nodes with linger := ls, order := o, lastWinner := k } } :=
  single (.nodes w _ fun h => ⟨h, fun _ => ⟨rfl, rfl⟩⟩)

theorem wake (w : Work) : w.Edits N { w with wake := true } := single (.wake w)

theorem clearMarks (w : Work) (a : LaneId) : w.Edits N (w.clearMarks a) := by
  unfold Work.clearMarks; split
  · exact trans (onNodes w _ (by simp [NodeEntry.reset]) fun x => by split <;> exact ⟨rfl, rfl⟩) (wake _)
  · exact refl w

theorem leaveClaim (w : Work) (a : LaneId) : w.Edits N (w.leaveClaim a) :=
  trans (setLists w w.nodes.linger _ w.nodes.lastWinner) (clearMarks _ a)

theorem joinClaim (w : Work) (a : LaneId) : w.Edits N (w.joinClaim a) :=
  trans (setLists w w.nodes.linger (w.nodes.order.filter (· != a) ++ [a]) w.nodes.lastWinner) (wake _)

theorem addLinger (w : Work) (n : Nat) (t : Time) : w.Edits N (w.addLinger n t) := by
  unfold Work.addLinger; dsimp only; split
  · split
    · exact trans (setLists w _ w.nodes.order w.nodes.lastWinner) (setDue _ _)
    · exact setLists w _ w.nodes.order w.nodes.lastWinner
  · exact refl w

theorem withdraw (w : Work) (f : Frame) : w.Edits N (w.withdraw f) := single (.withdraw w f)

theorem releaseNode (w : Work) (n : Nat) (t : Option Time) : w.Edits N (w.releaseNode n t) := by
  unfold Work.releaseNode; dsimp only
  refine trans (trans (setNode w n { w.node n with holder := .none, target := none } rfl rfl) (wake _)) ?_
  split
  · split
    · exact addLinger _ _ _
    · exact setDue _ _
  · exact setDue _ _
  · split
    · exact withdraw _ _
    · exact single (.dropWaiting _ n)
  · exact refl _

theorem releaseStep (w : Work) (e : Env) (n : LaneId) (c : CurStep) : w.Edits N (w.releaseStep e n c) := by
  refine foldl _ (fun w p => ?_) _ w
  split
  · exact releaseNode w _ _
  · exact refl w

/-! #### Quiet holds -/

theorem takeHold (w : Work) (n : LaneId) : w.Edits N (w.takeHold n) := by
  unfold Work.takeHold; split
  · exact refl w
  · exact single (.holds w _ w.chain.holdOff)

theorem releaseHold (w : Work) (n : LaneId) : w.Edits N (w.releaseHold n) := by
  unfold Work.releaseHold; split
  · exact single (.holds w _ true)
  · exact refl w

/-! #### The way of a step -/

theorem enterClaim (w : Work) (n : LaneId) (c : CurStep) (h : N c.nodes) : w.Edits N (w.enterClaim n c) :=
  trans (setCur w n h) (joinClaim _ n)

theorem consume (w : Work) (n : LaneId) (c : CurStep) (p : Poster × Byte) (h : N c.nodes) :
    w.Edits N (w.consume n c p) := trans (onLane w n _ rfl) (enterClaim _ n _ h)

theorem postToken (w : Work) (k : Fin 32) (p : Poster × Byte) : w.Edits N (w.postToken k p) := by
  refine assuming fun hw => ?_
  unfold Work.postToken; split
  · exact refl w
  · split
    · next c hc => exact consume w _ c _ (hw _ c hc)
    · exact refl w
  · exact single (.tokens w _)

theorem enterTokenWait (w : Work) (e : Env) (n : LaneId) (c : CurStep) (k : Fin 32) (h : N c.nodes) :
    w.Edits N (w.enterTokenWait e n c k) := by
  unfold Work.enterTokenWait; split
  · exact trans (single (.tokens w _)) (consume _ n c _ h)
  · exact trans (setCur w n h) (startWatch _ e n _)

theorem enterWaits (w : Work) (e : Env) (n : LaneId) (c : CurStep) (h : N c.nodes) :
    w.Edits N (w.enterWaits e n c) := by
  unfold Work.enterWaits; split
  · exact enterTokenWait w e n c _ h
  · exact enterClaim w n c h

theorem tryFollow (w : Work) (e : Env) (f : LaneId) : w.Edits N (w.tryFollow e f) := by
  unfold Work.tryFollow; dsimp only; split
  · split
    · refine trans (setLane w f { w.lane f with run := .following, remembered := some (w.lane f).run } rfl)
        (assuming fun hw => ?_)
      split
      · next c hc =>
        split
        · exact enterWaits _ e _ c (hw _ c hc)
        · exact refl _
      · exact refl _
    · exact refl w
  · exact refl w

theorem enterFuseWait (w : Work) (e : Env) (n : LaneId) (c : CurStep) (h : N c.nodes) :
    w.Edits N (w.enterFuseWait e n c) := trans (trans (setCur w n h) (onLane _ _ _ rfl)) (tryFollow _ e _)

theorem cur_afterDelivery (l : Lane) (b : Bool) : (l.afterDelivery b).cur = l.cur := by
  unfold Lane.afterDelivery; split
  · rfl
  · split
    · rfl
    · split <;> rfl

theorem deliver (w : Work) (e : Env) (n : LaneId) (c : CurStep) (r : ResultRecord) : w.Edits N (w.deliver e n c r) := by
  have hdone : w.Edits N (if c.step.origin = .unit then (w.enterResult n r).send n (.done c.step.tag r.verdict)
      else w.enterResult n r) := by
    split
    · exact trans (enterResult w n r) (send _ _ _)
    · exact enterResult w n r
  unfold Work.deliver; dsimp only
  exact trans hdone (trans (clearCur _ n) (trans (noteRemoval _ e n _ _) (trans (raiseVerdict _ _ n _)
    (trans (onLane _ n _ (cur_afterDelivery _ _)) (trans (endPair _ n _) (tryFollow _ e n))))))

theorem offer (w : Work) (e : Env) (n : LaneId) : w.Edits N (w.offer e n) := by
  unfold Work.offer; split
  · split
    · split
      · exact deliver w e n _ _
      · exact refl w
    · exact refl w
  · exact refl w

theorem enterDeliver (w : Work) (e : Env) (n : LaneId) (c : CurStep) (r : ResultRecord) (h : N c.nodes) :
    w.Edits N (w.enterDeliver e n c r) := trans (setCur w n h) (offer _ e n)

theorem complete (w : Work) (e : Env) (n : LaneId) (c : CurStep) (v : Verdict) (h : N c.nodes) :
    w.Edits N (w.complete e n c v) :=
  trans (driveAll w e _ _ _) (trans (releaseStep _ e n c) (enterDeliver _ e n c _ h))

theorem startSettle (w : Work) (e : Env) (n : LaneId) (c : CurStep) (h : N c.nodes) :
    w.Edits N (w.startSettle e n c).1 := by
  unfold Work.startSettle; dsimp only
  split
  · split
    · dsimp only; exact trans (setCur w n h) (onLane _ n _ rfl)
    · dsimp only; exact trans (setCur w n h) (onLane _ n _ rfl)
  · dsimp only; exact trans (setCur w n h) (onLane _ n _ rfl)

theorem enterReadyWait (w : Work) (e : Env) (n : LaneId) (c : CurStep) (h : N c.nodes) :
    w.Edits N (w.enterReadyWait e n c) := trans (setCur w n h) (startWatch _ e n _)

theorem sendSetup (w : Work) (n : LaneId) (c : CurStep) : w.Edits N (w.sendSetup n c) := sendAll w _ _

/-- What follows the start of a settle continues from the state that the start leaves. -/
theorem afterSettle (w : Work) (e : Env) (n : LaneId) (c : CurStep) (f : Work → Nat → Bool → Work) (h : N c.nodes)
    (hf : ∀ (v : Work) (k : Nat) (b : Bool), v.Edits N (f v k b)) :
    w.Edits N (match w.startSettle e n c with
      | (w, some (captured, capped)) => f w captured capped
      | (w, none) => w) := by
  have hs := startSettle w e n c h
  split
  · next _ _ _ heq => rw [heq] at hs; exact trans hs (hf _ _ _)
  · next _ heq => rw [heq] at hs; exact hs

theorem repeatStep (w : Work) (e : Env) (n : LaneId) (c : CurStep) (h : N c.nodes) :
    w.Edits N (w.repeatStep e n c) :=
  trans (trans (driveAll w e _ _ _) (sendSetup _ n _))
    (afterSettle _ e n _ (fun v k b => v.enterReadyWait e n (c.nextAttempt.settled k b)) h
      fun v _ _ => enterReadyWait v e n _ h)

@[simp] theorem evaluated_nodes (c : CurStep) (e : Env) (n : LaneId) (r : Reading) :
    (c.evaluated e n r).1.nodes = c.nodes := by
  unfold CurStep.evaluated; dsimp only; split <;> rfl

theorem evaluate (w : Work) (e : Env) (n : LaneId) (c : CurStep) (h : N c.nodes) : w.Edits N (w.evaluate e n c) := by
  unfold Work.evaluate; split
  · exact refl w
  · next r _ =>
    have hx : N (c.evaluated e n r).1.nodes := by simpa using h
    dsimp only
    split
    · exact complete w e n _ _ hx
    · exact complete w e n _ _ hx
    · split
      · exact complete w e n _ _ hx
      · exact repeatStep w e n _ hx

theorem endGate (w : Work) (e : Env) (n : LaneId) (c : CurStep) (h : N c.nodes) : w.Edits N (w.endGate e n c) := by
  have hended : w.Edits N
      (((w.driveAll e (stepLanes n c.step) true false).releaseHold n).setCur n (some c.gateEnded)) :=
    trans (driveAll w e _ _ _) (trans (releaseHold _ n) (setCur _ n h))
  unfold Work.endGate; dsimp only; split
  · exact trans hended (evaluate _ e n _ h)
  · exact trans hended (startWatch _ e n _)

theorem openGate (w : Work) (e : Env) (n : LaneId) (c : CurStep) : w.Edits N (w.openGate e n c) :=
  trans (driveAll w e _ _ _) (startEach _ _ _ fun _ => rfl)

@[simp] theorem gateStep_nodes (w : Work) (c : CurStep) : (w.gateStep c).nodes = c.nodes := by
  unfold Work.gateStep; split <;> rfl

theorem postGate (w : Work) (n : LaneId) (r : StepRecord) : w.Edits N (w.postGate n r) := by
  unfold Work.postGate; split
  · exact postToken w _ _
  · exact refl w

theorem beginGate (w : Work) (e : Env) (n : LaneId) (c : CurStep) (h : N c.nodes) :
    w.Edits N (w.beginGate e n c) := by
  have hg : N (w.gateStep c).nodes := by simpa using h
  unfold Work.beginGate; dsimp only
  refine trans (v := ((w.openGate e n c).setCur n (some (w.gateStep c))).postGate n c.step)
    (trans (openGate w e n c) (trans (setCur _ n hg) (postGate _ n _))) ?_
  split
  · exact endGate _ e n _ hg
  · exact refl _

theorem endSourceDelay (w : Work) (e : Env) (n : LaneId) (c : CurStep) (h : N c.nodes) :
    w.Edits N (w.endSourceDelay e n c) := by
  unfold Work.endSourceDelay; dsimp only; split
  · refine trans (takeHold w n) ?_
    split
    · exact beginGate _ e n c h
    · exact refl _
  · exact beginGate w e n c h

theorem openSource (w : Work) (e : Env) (n : LaneId) (c : CurStep) (h : N c.nodes) :
    w.Edits N (w.openSource e n c) :=
  trans (setCur w n h) (trans (driveAll _ e _ _ _) (startEach _ _ _ fun _ => rfl))

theorem beginSource (w : Work) (e : Env) (n : LaneId) (c : CurStep) (h : N c.nodes) :
    w.Edits N (w.beginSource e n c) := by
  unfold Work.beginSource; dsimp only
  refine trans (openSource w e n c h) ?_
  split
  · exact endSourceDelay _ e n _ h
  · exact refl _

theorem endSettle (w : Work) (e : Env) (n : LaneId) (c : CurStep) (k : Nat) (b : Bool) (h : N c.nodes) :
    w.Edits N (w.endSettle e n c k b) := by
  unfold Work.endSettle; dsimp only; split
  · exact beginSource w e n _ h
  · exact enterReadyWait w e n _ h

theorem endSwitch (w : Work) (e : Env) (n : LaneId) (c : CurStep) (h : N c.nodes) : w.Edits N (w.endSwitch e n c) :=
  afterSettle w e n c (fun v k b => v.endSettle e n { c with phase := .settle } k b) h
    fun v _ _ => endSettle v e n _ _ _ h

theorem checkSwitch (w : Work) (e : Env) (n : LaneId) : w.Edits N (w.checkSwitch e n) := by
  refine assuming fun hw => ?_
  unfold Work.checkSwitch; split
  · next c hc =>
    split
    · exact endSwitch w e n c (hw n c hc)
    · exact refl w
  · exact refl w

theorem reportQuiet (w : Work) (e : Env) : w.Edits N (w.reportQuiet e) := by
  unfold Work.reportQuiet; split
  · refine foldl _ (fun w n => assuming fun hw => ?_) _ w
    split
    · next c hc =>
      split
      · exact beginGate w e n c (hw n c hc)
      · exact refl w
    · exact refl w
  · exact refl w

/-! #### Aborts -/

theorem abortStep (w : Work) (e : Env) (n : LaneId) (c : CurStep) (h : N c.nodes) : w.Edits N (w.abortStep e n c) :=
  trans (sendAll w _ _) (trans (driveAll _ e _ _ _) (trans (stopStep _ n _) (trans (releaseHold _ n)
    (trans (releaseStep _ e n c) (setCur _ n h)))))

theorem keepStep (w : Work) (n : LaneId) (c : CurStep) (p : ResumePoint) (h : N c.nodes) :
    w.Edits N (w.keepStep n c p) := trans (stopAll w n) (trans (setCur _ n h) (leaveClaim _ n))

theorem abortLane (w : Work) (e : Env) (n : LaneId) : w.Edits N (w.abortLane e n) := by
  refine assuming fun hw => ?_
  unfold Work.abortLane; dsimp only; split
  · split
    · exact refl w
    · exact onLane w n _ rfl
  · next c hc =>
    split
    · exact trans (abortStep w e n c (hw n c hc)) (onLane _ n _ rfl)
    · split
      · exact onLane w n _ rfl
      · exact trans (keepStep w n c _ (hw n c hc)) (trans (unfreeze _ n _) (onLane _ n _ rfl))

/-! #### Requests and messages at a lane -/

theorem resumeStep (w : Work) (e : Env) (n : LaneId) (c : CurStep) (h : N c.nodes) :
    w.Edits N (w.resumeStep e n c) := by
  unfold Work.resumeStep; split
  · exact enterFuseWait w e n c h
  · exact enterWaits w e n c h
  · exact enterClaim w n c h
  · exact refl w

/-- A lane that GO sets RUNNING. -/
theorem goRunning (w : Work) (e : Env) (n : LaneId) :
    w.Edits N (match (w.lane n).cur with
      | some c => (w.setLane n { w.lane n with run := .running }).resumeStep e n c
      | none => (w.setLane n { w.lane n with run := .running }).tryFollow e n) := by
  refine assuming fun hw => trans (setLane w n { w.lane n with run := .running } rfl) ?_
  split
  · next c hc => exact resumeStep _ e n c (hw n c hc)
  · exact tryFollow _ e n

theorem goLane (w : Work) (e : Env) (n : LaneId) : w.Edits N (w.goLane e n) := by
  unfold Work.goLane; dsimp only; split
  case h_5 | h_6 => exact refl w
  case h_7 =>
    split
    · exact setLane w n _ rfl
    · exact refl w
  all_goals exact goRunning w e n

theorem pauseLane (w : Work) (n : LaneId) : w.Edits N (w.pauseLane n) := by
  refine assuming fun hw => ?_
  unfold Work.pauseLane; dsimp only; split
  · split
    · exact onLane w n _ rfl
    · next c hc =>
      have hN := hw n c hc
      split
      · exact trans (keepStep w n c _ hN) (trans (unfreeze _ n _) (onLane _ n _ rfl))
      · exact trans (keepStep w n c _ hN) (onLane _ n _ rfl)
      · exact trans (keepStep w n c _ hN) (onLane _ n _ rfl)
      · exact onLane w n _ rfl
      · exact onLane w n _ rfl
      · exact setLane w n _ rfl
  · split
    · exact setLane w n _ rfl
    · exact refl w
  · exact refl w

theorem cancelLane (w : Work) (e : Env) (n : LaneId) : w.Edits N (w.cancelLane e n).1 := by
  refine assuming fun hw => ?_
  unfold Work.cancelLane; dsimp only
  refine trans (onLane w n (fun l => { l with queue := [] }) rfl) ?_
  split
  · exact noteRemoval _ e n _ _
  · next c hc =>
    split
    · exact noteRemoval _ e n _ _
    · split
      · exact trans (noteRemoval _ e n _ _) (trans (abortStep _ e n c (hw n c hc)) (offer _ e n))
      · refine trans (trans (stopAll _ n) (leaveClaim _ n)) (trans ?_ (trans (clearCur _ n)
          (trans (noteRemoval _ e n _ _) (trans (endPair _ n _) (tryFollow _ e n)))))
        split
        · exact wake _
        · exact refl _

@[simp] theorem onSide_nodes (c : CurStep) (b : Bool) (f : SideState → SideState) : (c.onSide b f).nodes = c.nodes := by
  unfold CurStep.onSide; split <;> rfl

theorem takeReady (w : Work) (e : Env) (l : LaneId) (t : BitVec 16) (a : Byte) : w.Edits N (w.takeReady e l t a) := by
  refine assuming fun hw => ?_
  unfold Work.takeReady; dsimp only; split
  · exact raise w _ (laneSource_ne l)
  · next c hc =>
    have hN : N (c.onSide (w.owner l).2 fun x => { x with ready := true }).nodes := by simpa using hw _ c hc
    split
    · split
      · exact trans (setCur w _ hN) (trans (onLane _ _ _ rfl) (beginSource _ e _ _ hN))
      · exact setCur w _ hN
    · exact raise w _ (laneSource_ne l)

theorem takeResult (w : Work) (e : Env) (l : LaneId) (t : BitVec 16) (a : Byte) (r : Reading) :
    w.Edits N (w.takeResult e l t a r) := by
  refine assuming fun hw => ?_
  unfold Work.takeResult; dsimp only; split
  · exact raise w _ (laneSource_ne l)
  · next c hc =>
    have hN : ∀ f, N (c.onSide (w.owner l).2 f).nodes := fun f => by simpa using hw _ c hc
    split
    · exact setCur w _ (hN _)
    · split
      · split
        · exact trans (setCur w _ (hN _)) (trans (onLane _ _ _ rfl) (evaluate _ e _ _ (hN _)))
        · exact setCur w _ (hN _)
      · exact raise w _ (laneSource_ne l)

theorem hunt (w : Work) (n : LaneId) : w.Edits N (w.hunt n) := onLane w n _ rfl

theorem discardFrame (w : Work) (n : LaneId) : w.Edits N (w.discardFrame n) :=
  trans (hunt w n) (raise _ _ (laneSource_ne n))

theorem handOut (w : Work) (e : Env) : w.Edits N (w.handOut e) := foldl _ (fun w n => offer w e n) _ w

theorem append (w : Work) (n : LaneId) (r : StepRecord) : w.Edits N (w.append n r) := onLane w n _ rfl

end Editing

end Sys2Proof.Machine
end

section
/-! PROOFS, family 02_the_node_map.md: the frame queue's places and the marks of an event's triggers, over every step. -/

namespace Sys2Proof.Machine

/-! ### Between two passes -/

/-- The nodes of a step do not repeat (R78). -/
abbrev DistinctNodes (ns : List (Nat × Fin 20)) : Prop := (ns.map (·.1)).Nodup

/-- What stands in for `Work.FramesFit` inside an event: a waiting target may stand before a free place of the queue once
the marks say that slots are still to be handed out (R45). -/
structure Work.Fitting (w : Work) : Prop where
  queue : w.chain.queue.length ≤ Config.frameQueueCap
  waiting : w.chain.waiting ≠ [] → w.chain.queue.length = Config.frameQueueCap ∨ (w.wake = true ∧ w.freed = true)
  steps : w.StepsHave DistinctNodes

/-- A freed slot is a trigger of R45. -/
abbrev Work.Marked (w : Work) : Prop := w.freed = true → w.wake = true

theorem Work.FramesFit.fitting {w : Work} (h : w.FramesFit) : w.Fitting :=
  ⟨h.queue, fun hw => .inl (h.waiting hw), h.nodes⟩

theorem Work.Fitting.framesFit {w : Work} (h : w.Fitting) (hm : ¬ (w.wake = true ∧ w.freed = true)) : w.FramesFit :=
  ⟨h.queue, fun hw => (h.waiting hw).resolve_right hm, h.steps⟩

theorem Work.Edit.fitting {w v : Work} (h : w.Edit DistinctNodes v) (hw : w.Fitting) : v.Fitting := by
  refine ⟨?_, ?_, h.stepsHave hw.steps⟩
  · cases h with
    | withdraw f => exact Nat.le_trans (List.length_filter_le _ _) hw.queue
    | _ => exact hw.queue
  · cases h with
    | withdraw f => exact fun _ => .inr ⟨rfl, rfl⟩
    | wake => exact fun h => (hw.waiting h).imp_right fun ⟨_, hf⟩ => ⟨rfl, hf⟩
    | dropWaiting n => exact fun h => hw.waiting fun hnil => h (by simp [hnil])
    | _ => exact hw.waiting

theorem Work.Edit.marked {N : List (Nat × Fin 20) → Prop} {w v : Work} (h : w.Edit N v) (hw : w.Marked) :
    v.Marked := by
  cases h with
  | withdraw f => exact fun _ => rfl
  | wake => exact fun _ => rfl
  | _ => exact hw

/-- The second part arises from the first by edits, with new steps of distinct nodes alone. -/
structure Work.Changes (w v : Work) : Prop where
  edits : ∀ N : List (Nat × Fin 20) → Prop, (∀ ns, DistinctNodes ns → N ns) → w.Edits N v
  sound : w.Sound → v.Sound

theorem Work.Changes.fitting {w v : Work} (h : w.Changes v) (hw : w.Fitting) : v.Fitting := by
  have hr := h.edits DistinctNodes (fun _ h => h) hw.steps
  clear h
  induction hr with
  | refl => exact hw
  | tail _ h ih => exact h.fitting ih

theorem Work.Changes.marked {w v : Work} (h : w.Changes v) (hw : w.Marked) : v.Marked := by
  have hr := h.edits (fun _ => True) (fun _ _ => trivial) fun _ _ _ => trivial
  clear h
  induction hr with
  | refl => exact hw
  | tail _ h ih => exact h.marked ih

theorem Work.Changes.of {w v : Work} (h : ∀ N : List (Nat × Fin 20) → Prop, w.Edits N v) (k : w.Keeps v) :
    w.Changes v := ⟨fun N _ => h N, k.sound⟩

/-! ### Updates that leave queues and marks -/

/-- The second part has the frame queue, the waiting targets and the marks of the first. -/
structure Work.Still (w v : Work) : Prop where
  queue : v.chain.queue = w.chain.queue
  waiting : v.chain.waiting = w.chain.waiting
  wake : v.wake = w.wake
  freed : v.freed = w.freed
  steps : w.StepsHave DistinctNodes → v.StepsHave DistinctNodes
  sound : w.Sound → v.Sound

namespace Work.Still

theorem refl (w : Work) : w.Still w := ⟨rfl, rfl, rfl, rfl, id, id⟩

theorem trans {u v w : Work} (h : u.Still v) (k : v.Still w) : u.Still w :=
  ⟨k.queue.trans h.queue, k.waiting.trans h.waiting, k.wake.trans h.wake, k.freed.trans h.freed, k.steps ∘ h.steps,
    k.sound ∘ h.sound⟩

theorem framesFit {w v : Work} (h : w.Still v) (hw : w.FramesFit) : v.FramesFit :=
  ⟨h.queue ▸ hw.queue, fun hn => by rw [h.queue]; exact hw.waiting (h.waiting ▸ hn), h.steps hw.nodes⟩

theorem fitting {w v : Work} (h : w.Still v) (hw : w.Fitting) : v.Fitting :=
  ⟨h.queue ▸ hw.queue, fun hn => by rw [h.queue, h.wake, h.freed]; exact hw.waiting (h.waiting ▸ hn),
    h.steps hw.steps⟩

theorem foldl {α : Type} (f : Work → α → Work) (h : ∀ (w : Work) (x : α), w.Still (f w x)) (xs : List α) (w : Work) :
    w.Still (xs.foldl f w) := by
  induction xs generalizing w with
  | nil => exact refl w
  | cons x xs ih => exact trans (h w x) (ih (f w x))

/-- An update of nothing that the frames, the marks or the steps in progress read. -/
theorem of_same {w v : Work} (hc : v.chain.queue = w.chain.queue ∧ v.chain.waiting = w.chain.waiting)
    (hm : v.wake = w.wake ∧ v.freed = w.freed) (hl : ∀ n : LaneId, (v.lane n).cur = (w.lane n).cur)
    (hs : w.Sound → v.Sound) : w.Still v :=
  ⟨hc.1, hc.2, hm.1, hm.2, fun h n c hn => h n c (hl n ▸ hn), hs⟩

theorem setLane (w : Work) (n : LaneId) (l : Lane) (h : l.cur = (w.lane n).cur) (ht : l.tx = (w.lane n).tx) :
    w.Still (w.setLane n l) := by
  refine of_same ⟨rfl, rfl⟩ ⟨rfl, rfl⟩ (fun m => ?_) (Keeping.setLane w n l ht).sound
  by_cases hm : m = n
  · subst hm; simpa using h
  · rw [Work.lane_setLane_ne w l hm]

theorem onLane (w : Work) (n : LaneId) (f : Lane → Lane) (h : (f (w.lane n)).cur = (w.lane n).cur)
    (ht : (f (w.lane n)).tx = (w.lane n).tx) : w.Still (w.onLane n f) := setLane w n _ h ht

theorem setCur (w : Work) (n : LaneId) {c : CurStep} {ns : List (Nat × Fin 20)} (h : DistinctNodes ns)
    (hc : c.nodes = ns := by rfl) : w.Still (w.setCur n (some c)) := by
  subst hc
  refine ⟨rfl, rfl, rfl, rfl, fun hw m x hm => ?_, (Keeping.setCur w n _).sound⟩
  by_cases hn : m = n
  · subst hn
    obtain rfl : c = x := by simpa using hm
    exact h
  · exact hw m x (by simpa [Work.lane_setCur_ne w _ hn] using hm)

theorem raise (w : Work) (c : Cause) : w.Still (w.raise c) :=
  of_same ⟨rfl, rfl⟩ ⟨rfl, rfl⟩ (fun _ => rfl) (Keeping.raise w c).sound

theorem reply (w : Work) (e : Byte) (c : ReplyCode) (b : List Byte) : w.Still (w.reply e c b) :=
  of_same ⟨rfl, rfl⟩ ⟨rfl, rfl⟩ (fun _ => rfl) (Keeping.reply w e c b).sound

theorem send (w : Work) (n : LaneId) (m : UnitMessage) : w.Still (w.send n m) := by
  have hs := (Keeping.send w n m).sound
  unfold Work.send at hs ⊢; split
  · next h =>
    simp only [h, if_true] at hs
    refine of_same ⟨rfl, rfl⟩ ⟨rfl, rfl⟩ (fun i => ?_) hs
    by_cases hi : i = n
    · subst hi; simp
    · rw [Work.lane_onLane_ne w _ hi]
  · exact raise w _

theorem sendAll (w : Work) (ns : List LaneId) (m : UnitMessage) : w.Still (w.sendAll ns m) :=
  foldl _ (fun w n => send w n m) ns w

theorem setNode (w : Work) (n : Nat) (x : NodeEntry) : w.Still (w.setNode n x) :=
  of_same ⟨rfl, rfl⟩ ⟨rfl, rfl⟩ (fun _ => rfl) (Keeping.setNode w n x).sound

theorem startSettle (w : Work) (e : Env) (n : LaneId) (c : CurStep) (h : DistinctNodes c.nodes) :
    w.Still (w.startSettle e n c).1 := by
  have hset : w.Still (w.setCur n (some { c with phase := .settle })) := setCur w n h
  unfold Work.startSettle; dsimp only; split
  · split
    · exact trans hset (onLane _ n (fun l => { l with c0 := _ }) rfl rfl)
    · exact trans hset (onLane _ n (fun l => { l with c0 := _ }) rfl rfl)
  · exact trans hset (onLane _ n (fun l => { l with c0 := _ }) rfl rfl)

theorem enterReadyWait (w : Work) (e : Env) (n : LaneId) (c : CurStep) (h : DistinctNodes c.nodes) :
    w.Still (w.enterReadyWait e n c) := by
  unfold Work.enterReadyWait Work.startWatch
  exact trans (setCur w n h) (onLane _ n _ rfl rfl)

theorem send_cur (w : Work) (n : LaneId) (m : UnitMessage) (i : LaneId) :
    ((w.send n m).lane i).cur = (w.lane i).cur := by
  unfold Work.send; split
  · by_cases hi : i = n
    · subst hi; simp
    · rw [Work.lane_onLane_ne w _ hi]
  · rfl

theorem sendAll_cur (ns : List LaneId) (w : Work) (m : UnitMessage) (i : LaneId) :
    ((w.sendAll ns m).lane i).cur = (w.lane i).cur := by
  induction ns generalizing w with
  | nil => rfl
  | cons n ns ih => exact (ih (w.send n m)).trans (send_cur w n m i)

/-- A step that has not had READY goes no further than READY_WAIT at the end of its SWITCH. -/
theorem endSwitch (w : Work) (e : Env) (n : LaneId) (c : CurStep) (h : DistinctNodes c.nodes)
    (hr : c.leader.ready = false) : w.Still (w.endSwitch e n c) := by
  have hs := startSettle w e n c h
  have hready : ∀ k b, (({ c with phase := .settle } : CurStep).settled k b).allReady = false := by
    intro k b; simp [CurStep.settled, CurStep.allReady, hr]
  unfold Work.endSwitch; split
  · next v k b heq =>
    rw [heq] at hs
    simp only [Work.endSettle, hready, Bool.false_eq_true, if_false]
    exact trans hs (enterReadyWait v e n _ h)
  · next v heq => rw [heq] at hs; exact hs

theorem checkSwitch (w : Work) (e : Env) (n : LaneId) {c : CurStep} (hc : (w.lane n).cur = some c)
    (h : DistinctNodes c.nodes) (hr : c.leader.ready = false) : w.Still (w.checkSwitch e n) := by
  simp only [Work.checkSwitch, hc]
  split
  · exact endSwitch w e n c h hr
  · exact refl w

end Work.Still

/-! ### Taking nodes -/

theorem find?_unlinger {ls : List (Nat × Time)} {n m : Nat} (h : m ≠ n) :
    ((ls.filter fun p => p.1 != n).find? fun p => p.1 == m) = ls.find? fun p => p.1 == m := by
  rw [List.find?_filter]
  congr 1
  funext p
  by_cases hp : p.1 = m
  · simp [hp, h]
  · simp [hp]

theorem Work.lingering_congr {w v : Work} (h : v.nodes.linger = w.nodes.linger) (m : Nat) :
    v.lingering m = w.lingering m := by simp [Work.lingering, h]

theorem Work.lingering_unlinger_ne (w : Work) {n m : Nat} (h : m ≠ n) : (w.unlinger n).lingering m = w.lingering m := by
  simp [Work.lingering, Work.unlinger, find?_unlinger h]

theorem Work.lingering_unlinger (w : Work) (n : Nat) : (w.unlinger n).lingering n = none := by
  simp [Work.lingering, Work.unlinger, List.find?_filter]

theorem Work.node_takeNode_ne (w : Work) (h : Holder) {n m : Nat} (b : Fin 20) (hm : m ≠ n) :
    (w.takeNode h n b).node m = w.node m := by
  cases hr : w.claimRow n b <;> simp [Work.takeNode, hr, Work.node_setNode_ne w _ hm]

theorem Work.lingering_takeNode_ne (w : Work) (h : Holder) {n m : Nat} (b : Fin 20) (hm : m ≠ n) :
    (w.takeNode h n b).lingering m = w.lingering m := by
  cases hr : w.claimRow n b <;>
    simp [Work.takeNode, hr, Work.lingering, Work.unlinger, Work.enqueue, Work.withdraw, find?_unlinger hm]

/-- A claim queues a CLOSE or OPEN for its node, or withdraws the node's OPEN, or leaves the queue. -/
theorem Work.queue_takeNode (w : Work) (h : Holder) (n : Nat) (b : Fin 20) :
    (w.takeNode h n b).chain.queue =
      match w.claimRow n b with
      | .r1 => w.chain.queue ++ [.close n b]
      | .r4 => w.chain.queue.filter (· != .opn n)
      | .r5 => w.chain.queue ++ [.opn n]
      | _ => w.chain.queue := by
  cases hr : w.claimRow n b <;> simp only [Work.takeNode, hr] <;> rfl

theorem Work.openQueued_takeNode_ne (w : Work) (h : Holder) {n m : Nat} (b : Fin 20) (hm : m ≠ n) :
    (w.takeNode h n b).chain.openQueued m = w.chain.openQueued m := by
  rw [Chain.openQueued, Chain.openQueued, Bool.eq_iff_iff, List.contains_iff_mem, List.contains_iff_mem,
    Work.queue_takeNode]
  cases w.claimRow n b <;> simp [hm]

/-- The row of a node does not rest on what a claim does to another node (R22). -/
theorem Work.claimRow_takeNode_ne (w : Work) (h : Holder) {n m : Nat} (b d : Fin 20) (hm : m ≠ n) :
    (w.takeNode h n b).claimRow m d = w.claimRow m d := by
  simp only [Work.claimRow, Work.node_takeNode_ne w h b hm, Work.openQueued_takeNode_ne w h b hm,
    Work.lingering_takeNode_ne w h b hm]

@[simp] theorem Work.takeNode_lanes (w : Work) (h : Holder) (n : Nat) (b : Fin 20) :
    (w.takeNode h n b).lanes = w.lanes := by
  cases hr : w.claimRow n b <;> simp [Work.takeNode, hr]

@[simp] theorem Work.takeNode_lane (w : Work) (h : Holder) (n : Nat) (b : Fin 20) (i : LaneId) :
    (w.takeNode h n b).lane i = w.lane i := by simp [Work.lane]

@[simp] theorem Work.takeNode_waiting (w : Work) (h : Holder) (n : Nat) (b : Fin 20) :
    (w.takeNode h n b).chain.waiting = w.chain.waiting := by
  cases hr : w.claimRow n b <;> simp [Work.takeNode, hr]

/-- A claim leaves the marks, unless it withdraws a frame, which sets both (R33, R45). -/
theorem Work.marks_takeNode (w : Work) (h : Holder) (n : Nat) (b : Fin 20) :
    ((w.takeNode h n b).wake = if w.claimRow n b = .r4 then true else w.wake) ∧
      ((w.takeNode h n b).freed = if w.claimRow n b = .r4 then true else w.freed) := by
  cases hr : w.claimRow n b
  case r4 => simp only [Work.takeNode, hr]; exact ⟨rfl, rfl⟩
  all_goals simp [Work.takeNode, hr]

/-- The frames that the claim of these nodes queues. -/
def Work.framesNeeded (w : Work) (ps : List (Nat × Fin 20)) : Nat :=
  ps.countP fun p => (w.claimRow p.1 p.2).needsFrame

/-- The queue has places for the frames of the nodes still to be taken, and no target waits while one is needed. -/
structure Work.RoomFor (w : Work) (ps : List (Nat × Fin 20)) : Prop where
  queue : w.chain.queue.length + w.framesNeeded ps ≤ Config.frameQueueCap
  waiting : w.chain.waiting ≠ [] → w.framesNeeded ps = 0 ∧
    (w.chain.queue.length = Config.frameQueueCap ∨ (w.wake = true ∧ w.freed = true))

theorem Work.framesNeeded_takeNode (w : Work) (h : Holder) {n : Nat} (b : Fin 20) {ps : List (Nat × Fin 20)}
    (hn : n ∉ ps.map (·.1)) : (w.takeNode h n b).framesNeeded ps = w.framesNeeded ps := by
  refine List.countP_congr fun p hp => ?_
  have hm : p.1 ≠ n := fun he => hn (he ▸ List.mem_map_of_mem hp)
  rw [Work.claimRow_takeNode_ne w h b p.2 hm]

theorem Work.RoomFor.takeNode {w : Work} {p : Nat × Fin 20} {ps : List (Nat × Fin 20)} (hr : w.RoomFor (p :: ps))
    (h : Holder) (hn : p.1 ∉ ps.map (·.1)) : (w.takeNode h p.1 p.2).RoomFor ps := by
  obtain ⟨hq, hw⟩ := hr
  have hmarks := w.marks_takeNode h p.1 p.2
  have hqueue := w.queue_takeNode h p.1 p.2
  have hneed : w.framesNeeded (p :: ps) =
      w.framesNeeded ps + if (w.claimRow p.1 p.2).needsFrame then 1 else 0 := List.countP_cons
  have hfilter := List.length_filter_le (· != Frame.opn p.1) w.chain.queue
  constructor
  all_goals rw [w.framesNeeded_takeNode h p.2 hn, hqueue]
  all_goals rw [hneed] at hq hw
  · cases hrow : w.claimRow p.1 p.2 <;> simp_all [ClaimRow.needsFrame] <;> omega
  · rw [Work.takeNode_waiting, hmarks.1, hmarks.2]
    intro hne
    obtain ⟨hz, hfull⟩ := hw hne
    cases hrow : w.claimRow p.1 p.2 <;> simp_all [ClaimRow.needsFrame]

theorem Work.RoomFor.takeNodes {w : Work} {ps : List (Nat × Fin 20)} (h : Holder) (hr : w.RoomFor ps)
    (hn : DistinctNodes ps) : (ps.foldl (fun (w : Work) p => w.takeNode h p.1 p.2) w).RoomFor [] := by
  induction ps generalizing w with
  | nil => exact hr
  | cons p ps ih =>
    rw [DistinctNodes, List.map_cons, List.nodup_cons] at hn
    exact ih (hr.takeNode h hn.1) hn.2

theorem Work.takeNodes_lane (h : Holder) (ps : List (Nat × Fin 20)) (w : Work) (i : LaneId) :
    (ps.foldl (fun (w : Work) p => w.takeNode h p.1 p.2) w).lane i = w.lane i := by
  induction ps generalizing w with
  | nil => rfl
  | cons p ps ih => rw [List.foldl_cons, ih, Work.takeNode_lane]

/-- Enough free slots for a claim's frames (R21) leave room for them. -/
theorem Work.FramesFit.roomFor {w : Work} (h : w.FramesFit) {ps : List (Nat × Fin 20)}
    (hs : w.framesNeeded ps ≤ w.chain.freeSlots) : w.RoomFor ps := by
  have hq := h.queue
  have hw := h.waiting
  simp only [Chain.freeSlots] at hs
  constructor
  · omega
  · intro hne
    have := hw hne
    exact ⟨by omega, .inl this⟩

theorem Work.RoomFor.fitting {w : Work} (h : w.RoomFor []) (hs : w.StepsHave DistinctNodes) : w.Fitting :=
  ⟨Nat.le_trans (Nat.le_add_right _ _) h.queue, fun hw => (h.waiting hw).2, hs⟩

/-! ### Handing out slots -/

theorem Work.foldl_openDue_eq (ns : List Nat) (w : Work) :
    ns.foldl Work.openDue w =
      { w with nodes := { w.nodes with entries := (ns.foldl Work.openDue w).nodes.entries }
               chain := { w.chain with queue := w.chain.queue ++ ns.map .opn } } := by
  induction ns generalizing w with
  | nil => simp
  | cons n ns ih =>
    rw [List.foldl_cons, ih]
    simp [Work.openDue, Work.enqueue, Work.onNode, Work.setNode]

/-- Steps 1 and 2 of R45 change the queues and due flags alone. -/
theorem Work.serveSlots_eq (w : Work) :
    w.serveSlots =
      { w with
        nodes := { w.nodes with entries := w.serveSlots.nodes.entries }
        chain :=
          { w.chain with
            queue := w.moveWaiting.chain.queue ++ (w.dueNodes.take w.moveWaiting.chain.freeSlots).map .opn
            waiting := w.chain.waiting.drop (Config.frameQueueCap - w.chain.queue.length) } } := by
  conv_lhs => rw [Work.serveSlots, Work.dueProcessing, Work.foldl_openDue_eq]
  rfl

theorem Work.length_moveWaiting (w : Work) :
    w.moveWaiting.chain.queue.length =
      w.chain.queue.length + min (Config.frameQueueCap - w.chain.queue.length) w.chain.waiting.length := by
  simp [Work.moveWaiting]

theorem Work.serveSlots_framesFit {w : Work} (hq : w.chain.queue.length ≤ Config.frameQueueCap)
    (hs : w.StepsHave DistinctNodes) : w.serveSlots.FramesFit := by
  have hmove := w.length_moveWaiting
  have hfree : w.moveWaiting.chain.freeSlots = Config.frameQueueCap - w.moveWaiting.chain.queue.length
      - (w.chain.waiting.length - (Config.frameQueueCap - w.chain.queue.length)) := by
    simp [Chain.freeSlots, Work.moveWaiting]
  rw [Work.serveSlots_eq]
  refine ⟨?_, fun hne => ?_, hs⟩
  · simp only [List.length_append, List.length_map, List.length_take, Nat.min_def] at hmove ⊢
    split at hmove <;> split <;> omega
  · have hlen : (w.chain.waiting.drop (Config.frameQueueCap - w.chain.queue.length)).length ≠ 0 :=
      fun h => hne (List.length_eq_zero_iff.1 h)
    simp only [List.length_append, List.length_map, List.length_take, List.length_drop, Nat.min_def] at hlen hmove ⊢
    split at hmove <;> split <;> omega

@[simp] theorem Work.serveSlots_wake (w : Work) : w.serveSlots.wake = w.wake := by rw [Work.serveSlots_eq]
@[simp] theorem Work.serveSlots_freed (w : Work) : w.serveSlots.freed = w.freed := by rw [Work.serveSlots_eq]
@[simp] theorem Work.serveSlots_lanes (w : Work) : w.serveSlots.lanes = w.lanes := by rw [Work.serveSlots_eq]
@[simp] theorem Work.serveSlots_lane (w : Work) (i : LaneId) : w.serveSlots.lane i = w.lane i := by simp [Work.lane]

/-! ### Claims and the arbiter -/

theorem Work.FramesFit.marks {w : Work} (h : w.FramesFit) (b d : Bool) : { w with wake := b, freed := d }.FramesFit :=
  ⟨h.queue, h.waiting, h.nodes⟩

theorem Work.clearMarks_lane (w : Work) (a i : LaneId) : (w.clearMarks a).lane i = w.lane i := by
  unfold Work.clearMarks; split <;> rfl

theorem Work.clearMarks_chain (w : Work) (a : LaneId) : (w.clearMarks a).chain = w.chain := by
  unfold Work.clearMarks; split <;> rfl

theorem Work.clearMarks_marks (w : Work) (a : LaneId) :
    (w.wake = true → (w.clearMarks a).wake = true) ∧ (w.clearMarks a).freed = w.freed := by
  unfold Work.clearMarks; split
  · exact ⟨fun _ => rfl, rfl⟩
  · exact ⟨id, rfl⟩

theorem Work.grantNodes_fitting {w : Work} (h : w.FramesFit) (a : LaneId) {c : CurStep} (hn : DistinctNodes c.nodes)
    (hs : w.framesNeeded c.nodes ≤ w.chain.freeSlots) : (w.grantNodes a c).Fitting := by
  have hroom : ({ w with wake := false, freed := false } : Work).RoomFor c.nodes := (h.marks false false).roomFor hs
  obtain ⟨hq, hw⟩ := hroom.takeNodes (.lane a) hn
  have hmarks := Work.clearMarks_marks
  refine ⟨?_, ?_, ?_⟩
  · simp only [Work.grantNodes, Work.leaveClaim, Work.clearMarks_chain]
    exact Nat.le_trans (Nat.le_add_right _ _) hq
  · simp only [Work.grantNodes, Work.leaveClaim, Work.clearMarks_chain, (hmarks _ _).2]
    exact fun hne => (hw hne).2.imp_right fun ⟨hwake, hf⟩ => ⟨(hmarks _ _).1 hwake, hf⟩
  · intro i x hi
    refine h.nodes i x ?_
    simp only [Work.grantNodes, Work.leaveClaim] at hi
    rw [show ∀ v : Work, ∀ o : NodeMap, ({ v with nodes := o } : Work).lane i = v.lane i from fun _ _ => rfl,
      Work.clearMarks_lane] at hi
    rwa [show ∀ v : Work, ∀ o : NodeMap, ({ v with nodes := o } : Work).lane i = v.lane i from fun _ _ => rfl,
      Work.takeNodes_lane] at hi

theorem Work.takeClaim_framesFit {w : Work} (h : w.FramesFit) (e : Env) (a : LaneId) {c : CurStep}
    (hn : DistinctNodes c.nodes) (hs : w.framesNeeded c.nodes ≤ w.chain.freeSlots) :
    (w.takeClaim e a c).1.FramesFit := by
  have hg := Work.grantNodes_fitting h a hn hs
  have hserved : (if (w.grantNodes a c).freed then (w.grantNodes a c).serveSlots else w.grantNodes a c).FramesFit := by
    split
    · exact Work.serveSlots_framesFit hg.queue hg.steps
    · next hf => exact hg.framesFit fun hm => hf hm.2
  refine Work.Still.framesFit ?_ (hserved.marks false false)
  have hset := Work.Still.setCur { (if (w.grantNodes a c).freed then (w.grantNodes a c).serveSlots else w.grantNodes a c) with
    wake := false, freed := false } a (c := c.claimed) hn
  refine Work.Still.trans hset (Work.Still.trans (Work.Still.sendAll _ _ _) (Work.Still.checkSwitch _ e a (c := c.claimed) ?_ hn rfl))
  exact (Work.Still.sendAll_cur _ _ _ _).trans (by simp)

/-- The mark of a failed claim on one blocked node (R24). -/
def Work.placeMark (a : LaneId) (p : Work × Bool) (n : Nat) : Work × Bool :=
  let x := p.1.node n
  let marked := p.1.setNode n { x with waiter := some a }
  match x.waiter with
  | none => (marked, p.2)
  | some b =>
    if b = a then p
    else if p.1.nodes.order.idxOf a < p.1.nodes.order.idxOf b then (marked, true)
    else p

theorem Work.placeMarks_eq (w : Work) (a : LaneId) (ns : List Nat) :
    w.placeMarks a ns = ns.foldl (Work.placeMark a) (w, false) := rfl

theorem Work.placeMark_still (a : LaneId) (p : Work × Bool) (n : Nat) : p.1.Still (Work.placeMark a p n).1 := by
  unfold Work.placeMark; dsimp only; split
  · exact Work.Still.setNode _ _ _
  · split
    · exact Work.Still.refl _
    · split
      · exact Work.Still.setNode _ _ _
      · exact Work.Still.refl _

theorem Work.foldl_placeMark_still (a : LaneId) (ns : List Nat) (p : Work × Bool) :
    p.1.Still (ns.foldl (Work.placeMark a) p).1 := by
  induction ns generalizing p with
  | nil => exact Work.Still.refl _
  | cons n ns ih => exact Work.Still.trans (Work.placeMark_still a p n) (ih _)

theorem Work.placeMarks_still (w : Work) (a : LaneId) (ns : List Nat) : w.Still (w.placeMarks a ns).1 :=
  Work.foldl_placeMark_still a ns (w, false)

theorem Work.tryClaim_framesFit {w : Work} (h : w.FramesFit) (e : Env) (a : LaneId) : (w.tryClaim e a).1.FramesFit := by
  unfold Work.tryClaim; split
  · next c hc =>
    split
    · dsimp only; split
      · exact Work.Still.framesFit (w.placeMarks_still a _) h
      · split
        · exact h
        · next hs => exact Work.takeClaim_framesFit h e a (h.nodes a c hc) (Nat.le_of_not_lt hs)
    · exact h
  · exact h

theorem Work.foldl_tryClaim_framesFit (e : Env) (as : List LaneId) {p : Work × Bool} (h : p.1.FramesFit) :
    (as.foldl (fun (p : Work × Bool) a => ((p.1.tryClaim e a).1, p.2 || (p.1.tryClaim e a).2)) p).1.FramesFit := by
  induction as generalizing p with
  | nil => exact h
  | cons a as ih => exact ih (Work.tryClaim_framesFit h e a)

theorem Work.pass_framesFit {w : Work} (h : w.FramesFit) (e : Env) : (w.pass e).1.FramesFit :=
  Work.foldl_tryClaim_framesFit e _ (p := (w, false)) h

theorem Work.arbitrate_framesFit (e : Env) (k : Nat) {w : Work} (h : w.FramesFit) : (w.arbitrate e k).FramesFit := by
  induction k generalizing w with
  | zero => exact h
  | succ k ih =>
    have hp := Work.pass_framesFit h e
    unfold Work.arbitrate
    split
    · next heq => rw [heq] at hp; exact ih hp
    · next heq => rw [heq] at hp; exact hp

/-- The end of an event hands out what the event freed, so that no target waits before a free place (R45). -/
theorem Work.finish_framesFit {w : Work} (h : w.Fitting) (e : Env) : (w.finish e).FramesFit := by
  unfold Work.finish; split
  · next hwake =>
    refine Work.FramesFit.marks ?_ false false
    split
    · exact Work.arbitrate_framesFit e _
        (Work.serveSlots_framesFit (w := { w with wake := false, freed := false }) h.queue h.steps)
    · next hf =>
      have hv := Work.arbitrate_framesFit e passBound ((h.framesFit fun hm => hf hm.2).marks false false)
      exact Work.serveSlots_framesFit hv.queue hv.nodes
  · next hwake => exact h.framesFit fun hm => hwake hm.1

theorem Work.finish_rests {w : Work} (h : w.Marked) (e : Env) : (w.finish e).rested := by
  unfold Work.finish; split
  · exact ⟨rfl, rfl⟩
  · next hwake => exact ⟨by simpa using hwake, by cases hf : w.freed with
      | false => rfl
      | true => exact absurd (h hf) hwake⟩

end Sys2Proof.Machine
end

section
/-! PROOFS, family 02_the_node_map.md: what every command and every idle clock keeps. -/

namespace Sys2Proof.Machine

/-! ### From event to event -/

/-- What a whole step keeps: the capacities and forms, and that no trigger is left over. -/
structure Work.Settles (w v : Work) : Prop where
  sound : w.Sound → v.Sound
  fits : w.FramesFit → v.FramesFit
  rests : w.rested → v.rested

/-- What a step has kept before it hands out the slots it freed. -/
structure Work.Stirs (w v : Work) : Prop where
  sound : w.Sound → v.Sound
  fits : w.FramesFit → v.Fitting
  marked : w.rested → v.Marked

namespace Work.Settles

theorem refl (w : Work) : w.Settles w := ⟨id, id, id⟩

theorem still {u v w : Work} (h : u.Settles v) (k : v.Still w) : u.Settles w :=
  ⟨k.sound ∘ h.sound, fun hu => Work.Still.framesFit k (h.fits hu), fun hu => by
    rw [Work.rested, k.wake, k.freed]; exact h.rests hu⟩

theorem of_still {w v : Work} (h : w.Still v) : w.Settles v := still (refl w) h

theorem reply {w v : Work} (h : w.Settles v) (e : Byte) (c : ReplyCode) (b : List Byte) : w.Settles (v.reply e c b) :=
  still h (Work.Still.reply v e c b)

theorem stirs {w v : Work} (h : w.Settles v) : w.Stirs v :=
  ⟨h.sound, fun hw => (h.fits hw).fitting, fun hw hf => by simp [(h.rests hw).2] at hf⟩

end Work.Settles

namespace Work.Stirs

theorem changes {u v w : Work} (h : u.Stirs v) (k : v.Changes w) : u.Stirs w :=
  ⟨k.sound ∘ h.sound, fun hu => k.fitting (h.fits hu), fun hu => k.marked (h.marked hu)⟩

theorem of_changes {w v : Work} (h : w.Changes v) : w.Stirs v := changes (Work.Settles.refl w).stirs h

theorem still {u v w : Work} (h : u.Stirs v) (k : v.Still w) : u.Stirs w :=
  ⟨k.sound ∘ h.sound, fun hu => Work.Still.fitting k (h.fits hu), fun hu => by
    rw [Work.Marked, k.wake, k.freed]; exact h.marked hu⟩

theorem finish {w v : Work} (h : w.Stirs v) (e : Env) : w.Settles (v.finish e) :=
  ⟨(Keeping.finish v e).sound ∘ h.sound, fun hw => Work.finish_framesFit (h.fits hw) e, fun hw =>
    Work.finish_rests (h.marked hw) e⟩

theorem finishQuiet {w v : Work} (h : w.Stirs v) (e : Env) : w.Settles (v.finishQuiet e) :=
  finish (changes (finish h e).stirs ⟨fun _ _ => Editing.reportQuiet _ e, (Keeping.reportQuiet _ e).sound⟩) e

/-- An update that sets both marks, with no frame added and no step written. -/
theorem of_freed {w v : Work} (hs : w.Sound → v.Sound) (hq : v.chain.queue.length ≤ w.chain.queue.length)
    (hl : v.lanes = w.lanes) (hm : v.wake = true ∧ v.freed = true) : w.Stirs v :=
  ⟨hs, fun hw => ⟨Nat.le_trans hq hw.queue, fun _ => .inr hm, fun n c hn => hw.nodes n c
    (by rwa [Work.lane, hl] at hn)⟩, fun _ _ => hm.1⟩

end Work.Stirs

/-! ### Safety aborts -/

theorem Work.requestOpenAll_still (w : Work) : w.Still w.requestOpenAll := by
  have hs := (Keeping.requestOpenAll w).sound
  unfold Work.requestOpenAll at hs ⊢; split
  · next h => rw [if_pos h] at hs; exact Work.Still.of_same ⟨rfl, rfl⟩ ⟨rfl, rfl⟩ (fun _ => rfl) hs
  · exact Work.Still.refl w

theorem Work.abortLanes_changes (w : Work) (e : Env) (ns : List LaneId) :
    w.Changes (ns.foldl (fun w n => w.abortLane e n) w) :=
  .of (fun _ => Editing.foldl _ (fun w n => Editing.abortLane w e n) ns w)
    (Keeping.foldl _ (fun w n => Keeping.abortLane w e n) ns w)

theorem Work.offers_changes (w : Work) (e : Env) (ns : List LaneId) :
    w.Changes (ns.foldl (fun w n => w.offer e n) w) :=
  .of (fun _ => Editing.foldl _ (fun w n => Editing.offer w e n) ns w)
    (Keeping.foldl _ (fun w n => Keeping.offer w e n) ns w)

theorem Work.Stirs.safetyAbort {w v : Work} (h : w.Stirs v) (e : Env) (c : Cause) : w.Stirs (v.safetyAbort e c) :=
  Work.Stirs.changes (Work.Stirs.still (Work.Stirs.changes (Work.Stirs.still h (Work.Still.raise v c))
    (Work.abortLanes_changes _ e _)) (Work.requestOpenAll_still _)) (Work.offers_changes _ e _)

/-- An update of the chain that leaves its queues and holds. -/
theorem Work.chain_still (w : Work) (c : Chain) (hq : c.queue = w.chain.queue) (hw : c.waiting = w.chain.waiting)
    (hh : c.holds = w.chain.holds) : w.Still { w with chain := c } :=
  Work.Still.of_same ⟨hq, hw⟩ ⟨rfl, rfl⟩ (fun _ => rfl) fun s =>
    ⟨s.results, s.transmit, s.linger, s.order, hh ▸ s.holds, s.entries⟩

theorem Work.port_still (w : Work) (p : Port) : w.Still { w with port := p } :=
  Work.Still.of_same ⟨rfl, rfl⟩ ⟨rfl, rfl⟩ (fun _ => rfl) fun s =>
    ⟨s.results, s.transmit, s.linger, s.order, s.holds, s.entries⟩

theorem Work.Stirs.chainFault {w v : Work} (h : w.Stirs v) (e : Env) : w.Stirs (v.chainFault e) := by
  have hv : w.Stirs ({ v with chain := { v.chain with state := .fault } } : Work).requestUnchecked :=
    Work.Stirs.still h (Work.chain_still v { v.chain with state := .fault, requests := [⟨.unchecked, true⟩] } rfl rfl rfl)
  exact hv.safetyAbort e .chainFault

/-! ### The relay chain engine -/

theorem Work.frameShifted_eq (w : Work) (f : Frame) :
    w.frameShifted f = { w with nodes := { w.nodes with entries := (w.frameShifted f).nodes.entries } } := by
  cases f <;> simp only [Work.frameShifted] <;> split <;> rfl

theorem Work.frameShifted_sound {w : Work} (f : Frame) (h : w.Sound) : (w.frameShifted f).Sound := by
  cases f <;> simp only [Work.frameShifted] <;> split <;> first | exact h | exact (Keeping.setNode w _ _).sound h

theorem Work.endFrameShift_stirs (w : Work) (e : Env) (f : Frame) : w.Stirs (w.endFrameShift e f) := by
  refine Work.Stirs.of_freed (fun s => ?_) ?_ ?_ ?_
  · have h := Work.frameShifted_sound f
      (w := { w with chain := { w.chain with queue := w.chain.queue.filter (· != f), shift := none }
                     wake := true, freed := true })
      ⟨s.results, s.transmit, s.linger, s.order, s.holds, s.entries⟩
    exact ⟨h.results, h.transmit, h.linger, h.order, h.holds, h.entries⟩
  all_goals simp only [Work.endFrameShift]; rw [Work.frameShifted_eq]
  · exact List.length_filter_le _ _
  · exact ⟨rfl, rfl⟩

theorem Work.endOpenAllShift_stirs (w : Work) (e : Env) : w.Stirs (w.endOpenAllShift e) :=
  Work.Stirs.of_freed
    (fun s => ⟨s.results, s.transmit, Nat.zero_le _, s.order, s.holds, entriesWf_mapEntries s.entries _⟩)
    (Nat.zero_le _) rfl ⟨rfl, rfl⟩

theorem Work.answerReset_still (w : Work) (c : ReplyCode) : w.Still (w.answerReset c) := by
  unfold Work.answerReset; split
  · exact Work.Still.reply w _ _ _
  · exact Work.Still.refl w

theorem Work.Stirs.judgeOpenAll {w v : Work} (h : w.Stirs v) (e : Env) (k : OpenAllKind) (good : Bool) :
    w.Stirs (v.judgeOpenAll e k good) := by
  have hset : ∀ c, w.Stirs { v with chain := { v.chain with state := c } } := fun c =>
    Work.Stirs.still h (Work.chain_still v _ rfl rfl rfl)
  unfold Work.judgeOpenAll; split
  · exact h
  · split
    · exact h.chainFault e
    · exact h
  all_goals
    split
    · exact Work.Stirs.still (hset _) (Work.answerReset_still _ _)
    · exact Work.Stirs.still ((hset _).safetyAbort e _) (Work.answerReset_still _ _)

theorem Work.popInflight_stirs (w : Work) : w.Stirs w.popInflight :=
  Work.Stirs.of_freed (fun s => ⟨s.results, s.transmit, s.linger, s.order, s.holds, s.entries⟩) (Nat.le_refl _) rfl
    ⟨rfl, rfl⟩

/-- With slots still to be handed out, a target may be queued as CLOSE or wait. -/
theorem Work.queueTarget_fitting {w : Work} (h : w.Fitting) (hm : w.wake = true ∧ w.freed = true) (n : Nat)
    (b : Fin 20) : (w.queueTarget n b).Fitting := by
  unfold Work.queueTarget; split
  · next hlt =>
    exact ⟨by simp only [Work.enqueue, List.length_append, List.length_singleton]; omega, fun _ => .inr hm, h.steps⟩
  · exact ⟨h.queue, fun _ => .inr hm, h.steps⟩

theorem Work.queueTarget_marks (w : Work) (n : Nat) (b : Fin 20) :
    (w.queueTarget n b).wake = w.wake ∧ (w.queueTarget n b).freed = w.freed := by
  unfold Work.queueTarget; split <;> exact ⟨rfl, rfl⟩

/-- A part whose slots are still to be handed out, after a completion. -/
structure Work.Opens (w v : Work) : Prop where
  stirs : w.Stirs v
  wake : v.wake = true
  freed : v.freed = true

theorem Work.Opens.still {u v w : Work} (h : u.Opens v) (k : v.Still w) : u.Opens w :=
  ⟨Work.Stirs.still h.stirs k, k.wake.trans h.wake, k.freed.trans h.freed⟩

theorem Work.Opens.closeOntoTarget {w v : Work} (h : w.Opens v) (n : Nat) : w.Opens (v.closeOntoTarget n) := by
  unfold Work.closeOntoTarget; split
  · next b _ =>
    have hm := v.queueTarget_marks n b
    exact ⟨⟨(Keeping.queueTarget v n b).sound ∘ h.stirs.sound,
      fun hw => Work.queueTarget_fitting (h.stirs.fits hw) ⟨h.wake, h.freed⟩ n b, fun _ _ => hm.1.trans h.wake⟩,
      hm.1.trans h.wake, hm.2.trans h.freed⟩
  · exact h

theorem Work.popInflight_opens (w : Work) : w.Opens w.popInflight := ⟨w.popInflight_stirs, rfl, rfl⟩

theorem Work.onNodes_still (w : Work) (f : NodeEntry → NodeEntry) : w.Still (w.onNodes f) :=
  Work.Still.of_same ⟨rfl, rfl⟩ ⟨rfl, rfl⟩ (fun _ => rfl) (Keeping.onNodes w f).sound

/-! ### Admission -/

theorem length_translateAll {fix : Fixed} {ks : List Connection} {ps : List Nat} (h : translateAll fix ks = .ok ps) :
    ps.length = ks.length := by
  induction ks generalizing ps with
  | nil => obtain rfl := Except.ok.inj h; rfl
  | cons k ks ih =>
    simp only [translateAll] at h
    split at h
    · simp at h
    · split at h
      · simp at h
      · next hks =>
        obtain rfl := Except.ok.inj h
        simp [ih hks]

/-- A step that passes its admission has distinct nodes (R78). -/
theorem distinctNodes_of_admissionCheck {fix : Fixed} {n : LaneId} {r : StepRecord} {nodes : List (Nat × Fin 20)}
    (h : admissionCheck fix n r = .ok nodes) : DistinctNodes nodes := by
  simp only [admissionCheck] at h
  split at h
  · simp at h
  · split at h
    · simp at h
    · split at h
      · simp at h
      · split at h
        · simp at h
        · next ps hps =>
          split at h
          · next hd =>
            obtain rfl := Except.ok.inj h
            have hlen := length_translateAll hps
            rwa [DistinctNodes, List.map_fst_zip (by simp [hlen])]
          · simp at h

theorem Work.admitHead_changes (w : Work) (e : Env) (n : LaneId) : w.Changes (w.admitHead e n) := by
  refine ⟨fun N hN => ?_, (Keeping.admitHead w e n).sound⟩
  unfold Work.admitHead; split
  · exact Editing.refl w
  · next step rest _ =>
    have hqueue : w.Edits N (w.onLane n fun l => { l with queue := rest }) := Editing.onLane w n _ rfl
    dsimp only; split
    · next nodes h =>
      have hnodes : N (CurStep.admitted step nodes).nodes := hN _ (distinctNodes_of_admissionCheck h)
      refine Editing.trans hqueue ?_
      unfold Work.startStep; split
      · exact Editing.enterFuseWait _ e n _ hnodes
      · exact Editing.enterWaits _ e n _ hnodes
    · exact Editing.trans hqueue (Editing.enterDeliver _ e n _ _ (hN _ List.nodup_nil))

/-! ### Node requests -/

theorem Work.holdNode_stirs (w : Work) (n : Nat) (b : Fin 20) : w.Stirs (w.holdNode n b).1 := by
  have hs := (Keeping.holdNode w n b).sound
  unfold Work.holdNode at hs ⊢; dsimp only at hs ⊢; split
  iterate 3 exact (Work.Settles.refl w).stirs
  · split
    · exact (Work.Settles.refl w).stirs
    · next hslot =>
      refine ⟨(Keeping.takeNode w _ n b).sound, fun hw => ?_, fun hw hf => ?_⟩
      · have hneed : w.framesNeeded [(n, b)] ≤ w.chain.freeSlots := by
          have : w.framesNeeded [(n, b)] = if (w.claimRow n b).needsFrame then 1 else 0 := by
            simp [Work.framesNeeded, List.countP_cons]
          rw [this]; split
          · next hn => exact Nat.one_le_iff_ne_zero.2 fun h0 => hslot ⟨hn, h0⟩
          · exact Nat.zero_le _
        exact ((hw.roomFor hneed).takeNode .manual (p := (n, b)) (by simp)).fitting
          fun i x hi => hw.nodes i x (by simpa using hi)
      · obtain ⟨hwake, hfreed⟩ := w.marks_takeNode .manual n b
        rw [hfreed] at hf
        rw [hwake]
        split at hf
        · next h4 => rw [if_pos h4]
        · simp [hw.2] at hf

/-! ### Commands -/

theorem Work.clearLanes_still (w : Work) : w.Still (allLanes.foldl Work.clearLane w) := by
  refine Work.Still.foldl _ (fun w n => ?_) _ w
  unfold Work.clearLane
  have hsent : w.Still (match (w.lane n).cur with
      | some c => if c.phase.pastClaim then w.sendAll (stepLanes n c.step) (.cancel c.step.tag c.attempt) else w
      | none => w) := by
    split
    · split
      · exact Work.Still.sendAll _ _ _
      · exact Work.Still.refl w
    · exact Work.Still.refl w
  refine Work.Still.trans hsent ⟨rfl, rfl, rfl, rfl, fun hw m c hm => ?_, (Keeping.onLane _ n _ rfl).sound⟩
  by_cases hn : m = n
  · subst hn; simp [Lane.reset] at hm
  · exact hw m c (by rwa [Work.lane_onLane_ne _ _ hn] at hm)

/-- CLEAR leaves no waiting target, and no frame that was not queued. -/
theorem Work.clearFixture_frames (w : Work) :
    w.clearFixture.chain.queue.length ≤ w.chain.queue.length ∧ w.clearFixture.chain.waiting = [] ∧
      w.clearFixture.lanes = w.lanes := by
  unfold Work.clearFixture; dsimp only; split
  · unfold Work.requestOpenAll; split <;> exact ⟨Nat.le_refl _, rfl, rfl⟩
  · exact ⟨List.length_filter_le _ _, rfl, rfl⟩

theorem Work.clearFixture_sound {w : Work} (h : w.Sound) : w.clearFixture.Sound := by
  have hn : entriesWf (w.onNodes fun x => { x with waiter := none }).nodes.entries :=
    entriesWf_mapEntries h.entries fun x => { x with waiter := none }
  unfold Work.clearFixture; dsimp only; split
  · exact (Keeping.requestOpenAll _).sound ⟨h.results, h.transmit, h.linger, List.nodup_nil, List.nodup_nil, hn⟩
  · have hn' := entriesWf_mapEntries hn fun x => { x with holder := .none, target := none }
    exact ⟨h.results, h.transmit, h.linger, List.nodup_nil, List.nodup_nil, hn'⟩

theorem execClear_settles {s t : State} (h : execClear s = .next t) : s.work.Settles t.work := by
  obtain rfl := Host.Outcome.next.inj h
  have hc := s.work.clearLanes_still
  obtain ⟨hq, hw, hl⟩ := (allLanes.foldl Work.clearLane s.work).clearFixture_frames
  refine Work.Settles.reply ?_ _ _ _
  refine ⟨fun hs => ?_, fun hf => ⟨?_, fun hne => absurd hw hne, fun n c hn => ?_⟩, fun _ => ⟨rfl, rfl⟩⟩
  · have hv := Work.clearFixture_sound (hc.sound hs)
    exact ⟨Nat.zero_le _, hv.transmit, hv.linger, hv.order, hv.holds, hv.entries⟩
  · exact Nat.le_trans hq (Work.Still.framesFit hc hf).queue
  · refine (Work.Still.framesFit hc hf).nodes n c ?_
    rw [Work.lane, ← hl]
    exact hn

theorem reset_settles (w : Work) : w.Settles Work.reset := by
  have hlane : ∀ n : LaneId, Work.reset.lane n = Lane.reset := Work.reset_lane
  refine ⟨fun _ => ⟨Nat.zero_le _, fun n => ?_, Nat.zero_le _, List.nodup_nil, List.nodup_nil, entriesWf_reset⟩,
    fun _ => ⟨Nat.zero_le _, fun hne => absurd rfl hne, fun n c hn => ?_⟩, fun _ => ⟨rfl, rfl⟩⟩
  · rw [hlane]; exact Nat.zero_le _
  · rw [hlane] at hn; simp [Lane.reset] at hn

end Sys2Proof.Machine
end

section
/-! PROOFS, family 02_the_node_map.md: every command and every idle clock settles; O6, O7 and O11. -/

namespace Sys2Proof.Machine

section Commands

variable {s t : State}

theorem settles_of_onWork {f : Work → Work} (h : onWork s f = .next t) (hf : s.work.Settles (f s.work)) :
    s.work.Settles t.work := by
  obtain rfl := Host.Outcome.next.inj h
  exact hf

/-- The same for a command that has written the inputs first. -/
theorem settles_of_inputs {inputs : Inputs} {f : Work → Work} (h : onWork { s with inputs } f = .next t)
    (hf : s.work.Settles (f s.work)) : s.work.Settles t.work := by
  obtain rfl := Host.Outcome.next.inj h
  exact hf

/-! ### Configuration and readouts -/

theorem execConfigLane_settles {lane en fa ta : Byte} {gain : BitVec 16} {offset : BitVec 24} {linger : BitVec 16}
    {low mode : Byte} (h : execConfigLane lane en fa ta gain offset linger low mode s = .next t) :
    s.work.Settles t.work := by
  unfold execConfigLane at h
  dsimp only at h
  split at h
  · split at h
    · obtain rfl := Host.Outcome.next.inj h
      refine Work.Settles.reply (Work.Settles.of_still ?_) _ _ _
      split
      · exact Work.Still.setLane _ _ _ rfl rfl
      · exact Work.Still.refl _
    · exact settles_of_onWork h ((Work.Settles.refl _).reply _ _ _)
  · exact settles_of_onWork h ((Work.Settles.refl _).reply _ _ _)

theorem execLoadRegion_settles {a : Byte} {b c d : BitVec 16} (h : execLoadRegion a b c d s = .next t) :
    s.work.Settles t.work := by
  unfold execLoadRegion at h
  split at h
  · exact settles_of_onWork h ((Work.Settles.refl _).reply _ _ _)
  · split at h
    · obtain rfl := Host.Outcome.next.inj h
      exact (Work.Settles.refl _).reply _ _ _
    · exact settles_of_onWork h ((Work.Settles.refl _).reply _ _ _)

theorem execFixtureConfig_settles {a b c : BitVec 16} (h : execFixtureConfig a b c s = .next t) :
    s.work.Settles t.work := by
  unfold execFixtureConfig at h
  split at h
  · exact settles_of_onWork h ((Work.Settles.refl _).reply _ _ _)
  · split at h
    · exact settles_of_onWork h ((Work.Settles.refl _).reply _ _ _)
    · obtain rfl := Host.Outcome.next.inj h
      exact (Work.Settles.refl _).reply _ _ _

theorem execSetMask_settles {a : Byte} (h : execSetMask a s = .next t) : s.work.Settles t.work := by
  unfold execSetMask at h
  split at h
  · exact settles_of_onWork h ((Work.Settles.refl _).reply _ _ _)
  · obtain rfl := Host.Outcome.next.inj h
    exact (Work.Settles.refl _).reply _ _ _

theorem execReadLane_settles {a : Byte} (h : execReadLane a s = .next t) : s.work.Settles t.work := by
  refine settles_of_onWork h ?_
  split <;> exact (Work.Settles.refl _).reply _ _ _

theorem execReadRegion_settles {a : Byte} (h : execReadRegion a s = .next t) : s.work.Settles t.work := by
  refine settles_of_onWork h ?_
  split <;> exact (Work.Settles.refl _).reply _ _ _

theorem execReadNode_settles {a : BitVec 16} (h : execReadNode a s = .next t) : s.work.Settles t.work := by
  refine settles_of_onWork h ?_
  split <;> exact (Work.Settles.refl _).reply _ _ _

/-! ### Records, results, notices and tokens -/

theorem Work.append_still (w : Work) (n : LaneId) (r : StepRecord) : w.Still (w.append n r) :=
  Work.Still.onLane w n _ rfl rfl

theorem execPostStep_settles {a : Byte} {r : List Byte} (h : execPostStep a r s = .next t) :
    s.work.Settles t.work := by
  refine settles_of_onWork h ?_
  split
  · split
    · exact (Work.Settles.of_still (Work.append_still _ _ _)).reply _ _ _
    · exact (Work.Settles.refl _).reply _ _ _
  · exact (Work.Settles.refl _).reply _ _ _

theorem execTakeResults_settles {a : Byte} (h : execTakeResults a s = .next t) : s.work.Settles t.work := by
  refine settles_of_onWork h ?_
  split
  · exact (Work.Settles.refl _).reply _ _ _
  · have hleft : s.work.Still { s.work with results := s.work.results.drop a.toNat } :=
      Work.Still.of_same ⟨rfl, rfl⟩ ⟨rfl, rfl⟩ (fun _ => rfl) fun k =>
        ⟨Nat.le_trans (by simp) k.results, k.transmit, k.linger, k.order, k.holds, k.entries⟩
    dsimp only
    refine Work.Settles.reply (Work.Stirs.finish ?_ s.env) _ _ _
    split
    · exact Work.Stirs.still (Work.Settles.refl _).stirs hleft
    · exact Work.Stirs.changes (Work.Stirs.still (Work.Settles.refl _).stirs hleft) (Work.offers_changes _ _ _)

theorem execAckNotice_settles (h : execAckNotice s = .next t) : s.work.Settles t.work := by
  refine settles_of_onWork h ?_
  split
  · refine Work.Settles.reply (Work.Settles.of_still ?_) _ _ _
    exact Work.Still.of_same ⟨rfl, rfl⟩ ⟨rfl, rfl⟩ (fun _ => rfl) fun k =>
      ⟨k.results, k.transmit, k.linger, k.order, k.holds, k.entries⟩
  · exact (Work.Settles.refl _).reply _ _ _

theorem Work.postToken_changes (w : Work) (k : Fin 32) (p : Poster × Byte) : w.Changes (w.postToken k p) :=
  .of (fun _ => Editing.postToken w k p) (Keeping.postToken w k p)

theorem execTokenPost_settles {a b : Byte} (h : execTokenPost a b s = .next t) : s.work.Settles t.work := by
  refine settles_of_onWork h ?_
  split
  · exact (Work.Settles.refl _).reply _ _ _
  · split
    · exact (Work.Settles.refl _).reply _ _ _
    · exact ((Work.Stirs.of_changes (Work.postToken_changes _ _ _)).finish _).reply _ _ _

theorem Work.tokens_still (w : Work) (ts : Vector Token 32) : w.Still { w with tokens := ts } :=
  Work.Still.of_same ⟨rfl, rfl⟩ ⟨rfl, rfl⟩ (fun _ => rfl) (Keeping.setTokens w ts).sound

theorem execTokenClear_settles {a b : Byte} (h : execTokenClear a b s = .next t) : s.work.Settles t.work := by
  refine settles_of_onWork h ?_
  split
  · exact (Work.Settles.refl _).reply _ _ _
  · exact (Work.Settles.of_still (Work.tokens_still _ _)).reply _ _ _

theorem execTokenRead_settles {a b : Byte} (h : execTokenRead a b s = .next t) : s.work.Settles t.work := by
  refine settles_of_onWork h ?_
  split <;> exact (Work.Settles.refl _).reply _ _ _

/-! ### Nodes -/

theorem execSetNode_settles {a : BitVec 16} {b : Byte} (h : execSetNode a b s = .next t) : s.work.Settles t.work := by
  refine settles_of_onWork h ?_
  split
  · exact (Work.Settles.refl _).reply _ _ _
  · split
    · exact (Work.Settles.refl _).reply _ _ _
    · split
      · exact (Work.Settles.refl _).reply _ _ _
      · exact ((Work.holdNode_stirs _ _ _).finish _).reply _ _ _

theorem Work.releaseNode_changes (w : Work) (n : Nat) (t : Option Time) : w.Changes (w.releaseNode n t) :=
  .of (fun _ => Editing.releaseNode w n t) (Keeping.releaseNode w n t)

theorem execFreeNode_settles {a : BitVec 16} (h : execFreeNode a s = .next t) : s.work.Settles t.work := by
  refine settles_of_onWork h ?_
  split
  · exact (Work.Settles.refl _).reply _ _ _
  · split
    · exact (Work.Settles.refl _).reply _ _ _
    · exact (Work.Settles.refl _).reply _ _ _
    · exact ((Work.Stirs.of_changes (Work.releaseNode_changes _ _ _)).finish _).reply _ _ _

theorem execLingerExpiry_settles (h : execLingerExpiry s = .next t) : s.work.Settles t.work := by
  refine settles_of_onWork h ?_
  split
  · next n _ =>
    have hdue : s.work.Still (({ s.work with nodes := { s.work.nodes with linger := s.work.nodes.linger.tail } } :
        Work).setDue n) := by
      refine Work.Still.of_same ⟨rfl, rfl⟩ ⟨rfl, rfl⟩ (fun _ => rfl) fun k => ?_
      exact (Keeping.setDue _ n).sound
        ⟨k.results, k.transmit, Nat.le_trans (by simp) k.linger, k.order, k.holds, k.entries⟩
    refine ⟨fun k => (Keeping.serveSlots _).sound (hdue.sound k), fun k => ?_, fun k => ?_⟩
    · have hf := Work.Still.framesFit hdue k
      exact Work.serveSlots_framesFit hf.queue hf.nodes
    · exact ⟨(Work.serveSlots_wake _).trans k.1, (Work.serveSlots_freed _).trans k.2⟩
  · exact Work.Settles.refl _

/-! ### The relay chain engine -/

theorem execChainReset_settles (h : execChainReset s = .next t) : s.work.Settles t.work := by
  refine settles_of_onWork h ?_
  split
  · exact (Work.Settles.refl _).reply _ _ _
  · exact Work.Settles.of_still (Work.port_still _ _)
  · refine Work.Settles.of_still (Work.Still.trans ?_ (Work.port_still _ _))
    unfold Work.requestReset; split
    · exact Work.Still.refl _
    · exact Work.chain_still _ _ rfl rfl rfl

theorem execFrameShiftBegin_settles (h : execFrameShiftBegin s = .next t) : s.work.Settles t.work := by
  refine settles_of_onWork h ?_
  split
  · split
    · exact Work.Settles.of_still (Work.chain_still _ _ rfl rfl rfl)
    · exact Work.Settles.refl _
  · exact Work.Settles.refl _

theorem execFrameShiftEnd_settles {a : BitVec 32} (h : execFrameShiftEnd a s = .next t) : s.work.Settles t.work := by
  refine settles_of_onWork h ?_
  split
  · split
    · refine Work.Stirs.finish ?_ s.env
      split
      · exact (Work.endFrameShift_stirs _ _ _).chainFault _
      · exact Work.endFrameShift_stirs _ _ _
    · exact Work.Settles.refl _
  · exact Work.Settles.refl _

theorem execShiftAbandonedEnd_settles (h : execShiftAbandonedEnd s = .next t) : s.work.Settles t.work := by
  refine settles_of_onWork h ?_
  split
  · split
    · refine Work.Stirs.finishQuiet ?_ s.env
      exact Work.Stirs.still (Work.Settles.refl _).stirs (Work.chain_still _ _ rfl rfl rfl)
    · exact Work.Settles.refl _
  · exact Work.Settles.refl _

theorem execOpenAllShiftBegin_settles (h : execOpenAllShiftBegin s = .next t) : s.work.Settles t.work := by
  refine settles_of_onWork h ?_
  split
  · split
    · exact Work.Settles.of_still (Work.chain_still _ _ rfl rfl rfl)
    · exact Work.Settles.refl _
  · exact Work.Settles.refl _

theorem execOpenAllShiftEnd_settles {a : BitVec 32} (h : execOpenAllShiftEnd a s = .next t) :
    s.work.Settles t.work := by
  refine settles_of_onWork h ?_
  split
  · split
    · exact ((Work.endOpenAllShift_stirs _ _).judgeOpenAll _ _ _).finish _
    · exact Work.Settles.refl _
  · exact Work.Settles.refl _

theorem execCloseComplete_settles (h : execCloseComplete s = .next t) : s.work.Settles t.work := by
  refine settles_of_onWork h ?_
  split
  · next n _ =>
    refine Work.Stirs.finishQuiet ?_ s.env
    have hclosed : s.work.Stirs (if (s.work.popInflight.node n).phase = .closing then
        s.work.popInflight.setNode n { s.work.popInflight.node n with phase := .closed } else s.work.popInflight) := by
      split
      · exact Work.Stirs.still s.work.popInflight_stirs (Work.Still.setNode _ _ _)
      · exact s.work.popInflight_stirs
    split
    · exact hclosed.changes (.of (fun _ => Editing.checkSwitch _ _ _) (Keeping.checkSwitch _ _ _))
    · exact hclosed
  · exact Work.Settles.refl _

theorem execReleaseComplete_settles (h : execReleaseComplete s = .next t) : s.work.Settles t.work := by
  refine settles_of_onWork h ?_
  split
  · refine Work.Stirs.finishQuiet ?_ s.env
    split
    · exact ((s.work.popInflight_opens.still (Work.Still.setNode _ _ _)).closeOntoTarget _).stirs
    · exact s.work.popInflight_stirs
  · exact Work.Settles.refl _

theorem Work.Opens.closeOntoTargets {w v : Work} (h : w.Opens v) (ns : List Nat) :
    w.Opens (ns.foldl Work.closeOntoTarget v) := by
  induction ns generalizing v with
  | nil => exact h
  | cons n ns ih => exact ih (h.closeOntoTarget n)

theorem execOpenAllComplete_settles (h : execOpenAllComplete s = .next t) : s.work.Settles t.work := by
  refine settles_of_onWork h ?_
  split
  · exact ((s.work.popInflight_opens.still (Work.onNodes_still _ _)).closeOntoTargets _).stirs.finishQuiet _
  · exact Work.Settles.refl _

/-! ### Lanes -/

theorem execCancelLane_settles {a : Byte} (h : execCancelLane a s = .next t) : s.work.Settles t.work := by
  refine settles_of_onWork h ?_
  split
  · exact ((Work.Stirs.of_changes (.of (fun _ => Editing.cancelLane _ _ _) (Keeping.cancelLane _ _ _))).finish _).reply
      _ _ _
  · exact (Work.Settles.refl _).reply _ _ _

theorem execGo_settles {a : Byte} (h : execGo a s = .next t) : s.work.Settles t.work := by
  refine settles_of_onWork h ?_
  split
  · exact (Work.Settles.refl _).reply _ _ _
  · split
    · exact (Work.Settles.refl _).reply _ _ _
    · exact ((Work.Stirs.of_changes (.of (fun _ => Editing.foldl _ (fun w n => Editing.goLane w _ n) _ _)
        (Keeping.foldl _ (fun w n => Keeping.goLane w _ n) _ _))).finish _).reply _ _ _

theorem execPause_settles {a : Byte} (h : execPause a s = .next t) : s.work.Settles t.work := by
  refine settles_of_onWork h ?_
  split
  · exact (Work.Settles.refl _).reply _ _ _
  · exact ((Work.Stirs.of_changes (.of (fun _ => Editing.foldl _ Editing.pauseLane _ _)
      (Keeping.foldl _ Keeping.pauseLane _ _))).finish _).reply _ _ _

theorem execLineWrite_settles {a : Byte} (h : execLineWrite a s = .next t) : s.work.Settles t.work := by
  refine settles_of_onWork h (Work.Settles.reply (Work.Settles.of_still (Work.Still.foldl _ (fun w n => ?_) _ _)) _ _ _)
  split
  · exact Work.Still.onLane w n _ rfl rfl
  · exact Work.Still.refl w

theorem execAdmission_settles {n : LaneId} (h : execAdmission n s = .next t) : s.work.Settles t.work := by
  refine settles_of_onWork h ?_
  split
  · exact (Work.Stirs.of_changes (Work.admitHead_changes _ _ _)).finish _
  · exact Work.Settles.refl _

/-- An event at a lane's current step: the edits may build on the step's nodes. -/
theorem settles_of_step {n : LaneId} {c : CurStep} {v : Work} (e : Env) (hc : (s.work.lane n).cur = some c)
    (h : ∀ N : List (Nat × Fin 20) → Prop, N c.nodes → s.work.Edits N v) (k : s.work.Keeps v) :
    s.work.Settles (v.finish e) :=
  (Work.Stirs.of_changes (.of (fun _ => Editing.assuming fun hw => h _ (hw n c hc)) k)).finish e

theorem execFixedSettleExpiry_settles {n : LaneId} (h : execFixedSettleExpiry n s = .next t) :
    s.work.Settles t.work := by
  refine settles_of_onWork h ?_
  split
  · next c hc =>
    split
    · exact settles_of_step _ hc (fun _ hN => Editing.trans (Editing.onLane _ n _ rfl) (Editing.endSettle _ _ n c _ _ hN))
        (Keeping.trans (Keeping.onLane _ n _ rfl) (Keeping.endSettle _ _ n c _ _))
    · exact Work.Settles.refl _
  · exact Work.Settles.refl _

theorem execAdaptiveSettleEnd_settles {n : LaneId} (h : execAdaptiveSettleEnd n s = .next t) :
    s.work.Settles t.work := by
  refine settles_of_onWork h ?_
  split
  · next c hc =>
    dsimp only; split
    · split
      · exact settles_of_step _ hc
          (fun _ hN => Editing.trans (Editing.onLane _ n _ rfl) (Editing.endSettle _ _ n c _ _ hN))
          (Keeping.trans (Keeping.onLane _ n _ rfl) (Keeping.endSettle _ _ n c _ _))
      · exact Work.Settles.of_still (Work.Still.onLane _ n _ rfl rfl)
    · exact Work.Settles.refl _
  · exact Work.Settles.refl _

theorem execSourceDelayExpiry_settles {n : LaneId} (h : execSourceDelayExpiry n s = .next t) :
    s.work.Settles t.work := by
  refine settles_of_onWork h ?_
  split
  · next c hc =>
    split
    · refine settles_of_step _ hc (fun _ hN => ?_) ?_
      · exact Editing.trans (Editing.startEach _ _ (fun l => { l with c1 := l.c1.expire }) fun _ => rfl)
          (Editing.endSourceDelay _ _ n c hN)
      · exact Keeping.trans (Keeping.startEach _ _ (fun l => { l with c1 := l.c1.expire }) fun _ => rfl)
          (Keeping.endSourceDelay _ _ n c)
    · exact Work.Settles.refl _
  · exact Work.Settles.refl _

theorem execGateExpiry_settles {n : LaneId} (h : execGateExpiry n s = .next t) : s.work.Settles t.work := by
  refine settles_of_onWork h ?_
  split
  · next c hc =>
    split
    · refine settles_of_step _ hc (fun _ hN => ?_) ?_
      · exact Editing.trans (Editing.startEach _ _ (fun l => { l with c2 := l.c2.expire }) fun _ => rfl)
          (Editing.endGate _ _ n c hN)
      · exact Keeping.trans (Keeping.startEach _ _ (fun l => { l with c2 := l.c2.expire }) fun _ => rfl)
          (Keeping.endGate _ _ n c)
    · exact Work.Settles.refl _
  · exact Work.Settles.refl _

theorem execTokenTimeout_settles {n : LaneId} (h : execTokenTimeout n s = .next t) : s.work.Settles t.work := by
  refine settles_of_onWork h ?_
  split
  · next c hc =>
    split
    · exact settles_of_step _ hc
        (fun _ hN => Editing.trans (Editing.onLane _ n _ rfl) (Editing.enterDeliver _ _ n c _ hN))
        (Keeping.trans (Keeping.onLane _ n _ rfl) (Keeping.enterDeliver _ _ n c _))
    · exact Work.Settles.refl _
  · exact Work.Settles.refl _

theorem execTimeout_settles {n : LaneId} (h : execTimeout n s = .next t) : s.work.Settles t.work := by
  refine settles_of_onWork h ?_
  split
  · next c hc =>
    split
    · exact settles_of_step _ hc
        (fun _ hN => Editing.trans (Editing.onLane _ n _ rfl) (Editing.trans (Editing.sendAll _ _ _)
          (Editing.trans (Editing.stopStep _ n _) (Editing.complete _ _ n _ _ hN))))
        (Keeping.trans (Keeping.onLane _ n _ rfl) (Keeping.trans (Keeping.sendAll _ _ _)
          (Keeping.trans (Keeping.stopStep _ n _) (Keeping.complete _ _ n _ _))))
    · exact Work.Settles.refl _
  · exact Work.Settles.refl _

/-! ### Safety triggers -/

theorem execAbortAll_settles (h : execAbortAll s = .next t) : s.work.Settles t.work :=
  settles_of_onWork h ((((Work.Settles.refl _).stirs.safetyAbort _ _).finish _).reply _ _ _)

theorem Work.abandonClose_still (w : Work) : w.Still w.abandonClose := Work.chain_still w _ rfl rfl rfl

theorem execSeatingChangeUnseated_settles (h : execSeatingChangeUnseated s = .next t) : s.work.Settles t.work := by
  unfold execSeatingChangeUnseated at h
  dsimp only at h
  split at h
  · refine settles_of_inputs h (Work.Stirs.finish (Work.Stirs.safetyAbort ?_ _ _) _)
    exact Work.Stirs.still (Work.Settles.refl _).stirs (Work.abandonClose_still _)
  · obtain rfl := Host.Outcome.next.inj h
    exact Work.Settles.refl _

theorem execSeatingChangeSeated_settles (h : execSeatingChangeSeated s = .next t) : s.work.Settles t.work := by
  unfold execSeatingChangeSeated at h
  dsimp only at h
  split at h
  · obtain rfl := Host.Outcome.next.inj h
    exact Work.Settles.refl _
  · refine settles_of_inputs h (Work.Settles.of_still (Work.Still.trans ?_ (Work.Still.raise _ _)))
    exact (Work.chain_still _ _ rfl rfl rfl)

theorem execAbortNEdge_settles (h : execAbortNEdge s = .next t) : s.work.Settles t.work := by
  unfold execAbortNEdge at h
  dsimp only at h
  split at h
  · exact settles_of_inputs h (((Work.Settles.refl _).stirs.safetyAbort _ _).finish _)
  · obtain rfl := Host.Outcome.next.inj h
    exact Work.Settles.refl _

/-! ### Unit messages and links -/

theorem Work.hunt_still (w : Work) (n : LaneId) : w.Still (w.hunt n) := Work.Still.onLane w n _ rfl rfl

theorem Work.discardFrame_still (w : Work) (n : LaneId) : w.Still (w.discardFrame n) :=
  Work.Still.trans (w.hunt_still n) (Work.Still.raise _ _)

theorem execPost_settles {n : LaneId} {r : List Byte} (h : execPost n r s = .next t) : s.work.Settles t.work := by
  refine settles_of_onWork h (Work.Settles.of_still ?_)
  split
  · exact Work.discardFrame_still _ _
  · dsimp only
    split
    · exact Work.Still.trans (Work.hunt_still _ _) (Work.Still.send _ _ _)
    · split
      · exact Work.Still.trans (Work.hunt_still _ _) (Work.Still.trans (Work.append_still _ _ _) (Work.Still.send _ _ _))
      · exact Work.Still.trans (Work.hunt_still _ _) (Work.Still.send _ _ _)

theorem Work.hunt_changes (w : Work) (n : LaneId) : w.Changes (w.hunt n) :=
  .of (fun _ => Editing.hunt w n) (Keeping.hunt w n)

theorem execUnitCancelLane_settles {n : LaneId} (h : execUnitCancelLane n s = .next t) : s.work.Settles t.work :=
  settles_of_onWork h (((Work.Stirs.of_changes (Work.hunt_changes _ n)).changes
    (.of (fun _ => Editing.cancelLane _ _ n) (Keeping.cancelLane _ _ n))).finish _)

theorem execUnitPause_settles {n : LaneId} (h : execUnitPause n s = .next t) : s.work.Settles t.work :=
  settles_of_onWork h (((Work.Stirs.of_changes (Work.hunt_changes _ n)).changes
    (.of (fun _ => Editing.pauseLane _ n) (Keeping.pauseLane _ n))).finish _)

theorem execUnitGo_settles {n : LaneId} (h : execUnitGo n s = .next t) : s.work.Settles t.work := by
  refine settles_of_onWork h ?_
  dsimp only
  split
  · exact Work.Settles.of_still (Work.Still.trans (Work.hunt_still _ _) (Work.Still.send _ _ _))
  · exact ((Work.Stirs.of_changes (Work.hunt_changes _ n)).changes
      (.of (fun _ => Editing.trans (Editing.send _ _ _) (Editing.goLane _ _ n))
        (Keeping.trans (Keeping.send _ _ _) (Keeping.goLane _ _ n)))).finish _

theorem execReady_settles {n : LaneId} {a : BitVec 16} {b : Byte} (h : execReady n a b s = .next t) :
    s.work.Settles t.work :=
  settles_of_onWork h (((Work.Stirs.of_changes (Work.hunt_changes _ n)).changes
    (.of (fun _ => Editing.takeReady _ _ _ _ _) (Keeping.takeReady _ _ _ _ _))).finish _)

theorem execResult_settles {n : LaneId} {a : BitVec 16} {b : Byte} {r : BitVec 24} {f : Byte}
    (h : execResult n a b r f s = .next t) : s.work.Settles t.work := by
  refine settles_of_onWork h ?_
  split
  · exact Work.Settles.of_still (Work.discardFrame_still _ _)
  · exact ((Work.Stirs.of_changes (Work.hunt_changes _ n)).changes
      (.of (fun _ => Editing.takeResult _ _ _ _ _ _) (Keeping.takeResult _ _ _ _ _ _))).finish _

theorem execUnitToken_settles {n : LaneId} {a b : Byte} (h : execUnitToken n a b s = .next t) :
    s.work.Settles t.work := by
  refine settles_of_onWork h ?_
  dsimp only
  split
  · exact Work.Settles.of_still (Work.Still.trans (Work.hunt_still _ _) (Work.Still.send _ _ _))
  · split
    · exact Work.Settles.of_still (Work.Still.trans (Work.hunt_still _ _) (Work.Still.send _ _ _))
    · exact (((Work.Stirs.of_changes (Work.hunt_changes _ n)).still (Work.Still.send _ _ _)).changes
        (Work.postToken_changes _ _ _)).finish _

theorem execLinkStopBitError_settles {n : LaneId} (h : execLinkStopBitError n s = .next t) : s.work.Settles t.work :=
  settles_of_onWork h (Work.Settles.of_still (Work.Still.trans (Work.Still.onLane _ n _ rfl rfl)
    (Work.discardFrame_still _ _)))

theorem execLinkGapTimeout_settles {n : LaneId} (h : execLinkGapTimeout n s = .next t) : s.work.Settles t.work := by
  refine settles_of_onWork h (Work.Settles.of_still ?_)
  split
  · exact Work.discardFrame_still _ _
  · exact Work.Still.refl _

theorem execUnknownRequestType_settles {a : Byte} {b : List Byte} (h : execUnknownRequestType a b s = .next t) :
    s.work.Settles t.work := settles_of_onWork h ((Work.Settles.refl _).reply _ _ _)

theorem execLinkFrameDiscarded_settles {n : LaneId} {a : Byte} {b : List Byte}
    (h : execLinkFrameDiscarded n a b s = .next t) : s.work.Settles t.work :=
  settles_of_onWork h (Work.Settles.of_still (Work.discardFrame_still _ _))

theorem execTransmitMessage_settles {n : LaneId} (h : execTransmitMessage n s = .next t) : s.work.Settles t.work := by
  refine settles_of_onWork h (Work.Settles.of_still (Work.Still.onLane _ n _ ?_ ?_))
  all_goals split <;> rfl

theorem execLinkStartByte_settles {n : LaneId} (h : execLinkStartByte n s = .next t) : s.work.Settles t.work := by
  refine settles_of_onWork h (Work.Settles.of_still (Work.Still.onLane _ n _ ?_ ?_))
  all_goals split <;> rfl

/-- A message that has left the line shortens its transmit list. -/
theorem execTransmitEnd_settles {n : LaneId} (h : execTransmitEnd n s = .next t) : s.work.Settles t.work := by
  refine settles_of_onWork h (Work.Settles.of_still (Work.Still.of_same ⟨rfl, rfl⟩ ⟨rfl, rfl⟩ (fun m => ?_) fun k =>
    ⟨k.results, fun m => ?_, k.linger, k.order, k.holds, k.entries⟩))
  all_goals by_cases hm : m = n
  · subst hm; rw [Work.lane_onLane]; split <;> rfl
  · rw [Work.lane_onLane_ne _ _ hm]
  · subst hm; rw [Work.lane_onLane]; split
    · exact Nat.le_trans (by simp) (k.transmit m)
    · exact k.transmit m
  · rw [Work.lane_onLane_ne _ _ hm]; exact k.transmit m

/-! ### Every command -/

theorem exec_settles {i : Instr} (h : exec i s = .next t) : s.work.Settles t.work := by
  cases i with
  | hardReset => obtain rfl := Host.Outcome.next.inj h; exact reset_settles s.work
  | hostRequestAbandoned b => obtain rfl := Host.Outcome.next.inj h; exact Work.Settles.refl _
  | abortNRise => obtain rfl := Host.Outcome.next.inj h; exact Work.Settles.refl _
  | stableChange n b => obtain rfl := Host.Outcome.next.inj h; exact Work.Settles.refl _
  | unknownRequestType type body => exact execUnknownRequestType_settles (b := body) h
  | linkFrameDiscarded n type body => exact execLinkFrameDiscarded_settles (a := type) (b := body) h
  | postStep lane r => exact execPostStep_settles h
  | cancelLane lane => exact execCancelLane_settles h
  | go mask => exact execGo_settles h
  | pause mask => exact execPause_settles h
  | configLane => exact execConfigLane_settles h
  | readLane lane => exact execReadLane_settles h
  | loadRegion => exact execLoadRegion_settles h
  | readRegion => exact execReadRegion_settles h
  | fixtureConfig => exact execFixtureConfig_settles h
  | setNode => exact execSetNode_settles h
  | freeNode => exact execFreeNode_settles h
  | readNode => exact execReadNode_settles h
  | takeResults => exact execTakeResults_settles h
  | ackNotice => exact execAckNotice_settles h
  | setMask => exact execSetMask_settles h
  | tokenPost => exact execTokenPost_settles h
  | tokenClear token code => exact execTokenClear_settles (b := code) h
  | tokenRead token code => exact execTokenRead_settles (b := code) h
  | lineWrite => exact execLineWrite_settles h
  | abortAll => exact execAbortAll_settles h
  | chainReset => exact execChainReset_settles h
  | clear => exact execClear_settles h
  | post => exact execPost_settles h
  | unitCancelLane => exact execUnitCancelLane_settles h
  | unitPause => exact execUnitPause_settles h
  | unitGo => exact execUnitGo_settles h
  | ready => exact execReady_settles h
  | result => exact execResult_settles h
  | unitToken => exact execUnitToken_settles h
  | linkStopBitError => exact execLinkStopBitError_settles h
  | linkGapTimeout => exact execLinkGapTimeout_settles h
  | transmitMessage => exact execTransmitMessage_settles h
  | seatingChangeUnseated => exact execSeatingChangeUnseated_settles h
  | seatingChangeSeated => exact execSeatingChangeSeated_settles h
  | abortNEdge => exact execAbortNEdge_settles h
  | frameShiftBegin => exact execFrameShiftBegin_settles h
  | frameShiftEnd => exact execFrameShiftEnd_settles h
  | shiftAbandonedEnd => exact execShiftAbandonedEnd_settles h
  | openAllShiftBegin => exact execOpenAllShiftBegin_settles h
  | openAllShiftEnd => exact execOpenAllShiftEnd_settles h
  | closeComplete => exact execCloseComplete_settles h
  | releaseComplete => exact execReleaseComplete_settles h
  | openAllComplete => exact execOpenAllComplete_settles h
  | lingerExpiry => exact execLingerExpiry_settles h
  | admission => exact execAdmission_settles h
  | fixedSettleExpiry => exact execFixedSettleExpiry_settles h
  | adaptiveSettleEnd => exact execAdaptiveSettleEnd_settles h
  | sourceDelayExpiry => exact execSourceDelayExpiry_settles h
  | gateExpiry => exact execGateExpiry_settles h
  | tokenTimeout => exact execTokenTimeout_settles h
  | timeout => exact execTimeout_settles h
  | linkStartByte => exact execLinkStartByte_settles h
  | transmitEnd => exact execTransmitEnd_settles h

/-! ### Idling -/

/-- A lane's step and transmit list do not rest on the clock. -/
theorem advanceClock_step (s : State) (n : LaneId) :
    ((advanceClock s).work.lane n).cur = (s.work.lane n).cur ∧
      ((advanceClock s).work.lane n).tx = (s.work.lane n).tx := by
  rw [advanceClock_lane]
  exact ⟨rfl, rfl⟩

/-- The frames, the lists and the marks do not rest on the clock either. -/
theorem advanceClock_still (s : State) : s.work.Still (advanceClock s).work := by
  have hw := advanceClock_work s
  have hchain : (advanceClock s).work.chain.queue = s.work.chain.queue ∧
      (advanceClock s).work.chain.waiting = s.work.chain.waiting ∧
      (advanceClock s).work.chain.holds = s.work.chain.holds := by
    by_cases h : s.clock.sub + 1 < 50
    · rw [advanceClock_between h]; exact ⟨rfl, rfl, rfl⟩
    · rw [advanceClock_tick (by omega)]; exact ⟨rfl, rfl, rfl⟩
  refine Work.Still.of_same ⟨hchain.1, hchain.2.1⟩ ?_ (fun n => (advanceClock_step s n).1) fun k => ?_
  · rw [hw]; exact ⟨rfl, rfl⟩
  · refine ⟨?_, fun n => (advanceClock_step s n).2 ▸ k.transmit n, ?_, ?_, hchain.2.2 ▸ k.holds, ?_⟩
    all_goals rw [hw]
    · exact k.results
    · exact k.linger
    · exact k.order
    · exact k.entries

theorem step_settles (h : step s = .next t) : s.work.Settles t.work := by
  unfold step at h
  split at h
  · next c rest _ => exact exec_settles (s := { s with pending := rest }) h
  · obtain rfl := Host.Outcome.next.inj h
    unfold idle; split
    · exact Work.Settles.of_still (advanceClock_still s)
    · exact Work.Settles.refl _

end Commands

/-- Settles O6: what every operation keeps (Keeping), with the places of the frame queue counted through each claim. -/
theorem everyStepKeepsSound : Obligations.EveryStepKeepsSound := fun _ _ h =>
  ⟨(step_settles h).sound, fun _ => (step_settles h).fits⟩

/-- Settles O11: an event that sets a mark ends with the hand-out that clears it. -/
theorem everyStepEndsRested : Obligations.EveryStepEndsRested := fun _ _ hr h => (step_settles h).rests hr

/-- Settles O7: hard reset leads to the invariants from every part, and its lanes are empty. -/
theorem resetIsSound : Obligations.ResetIsSound := by
  have hlane : ∀ n : LaneId, State.reset.work.lane n = Lane.reset := Work.reset_lane
  refine ⟨⟨Nat.zero_le _, fun n => ?_, Nat.zero_le _, List.nodup_nil, List.nodup_nil, entriesWf_reset⟩,
    ⟨Nat.zero_le _, fun hne => absurd rfl hne, fun n c hn => ?_⟩, fun n => ?_,
    ⟨Nat.zero_le _, fun _ _ hs => by simp [State.reset, Work.reset, Chain.reset] at hs⟩, fun k hk => absurd
      (Work.reset_token k) hk, ⟨rfl, rfl⟩⟩
  · rw [hlane]; exact Nat.zero_le _
  · rw [hlane] at hn; simp [Lane.reset] at hn
  · rw [hlane]; exact Nat.zero_le _

end Sys2Proof.Machine
end

section
/-! PROOFS, family 02_the_node_map.md: the admission checks and FIXTURE_CONFIG. -/

namespace Sys2Proof.Machine

/-! ### The admission checks -/

theorem fuseOk_iff (fix : Fixed) (n : LaneId) (r : StepRecord) :
    fuseOk fix n r = true ↔
      (r.flags.fused = false ∨ ((n = 0 ∨ n = 2) ∧ (fix.lanes[(n + 1).val]).enabled = true)) := by
  simp [fuseOk, followerOf]

/-- The connections on a side of a step (R65, R76). -/
def connectionsOn (r : StepRecord) (x : Side) : List Connection :=
  if r.flags.fused then r.connections.filter fun k => decide (k.side = x)
  else if x = .leader then r.connections else []

/-- How often a side has a role. -/
def roleCount (r : StepRecord) (x : Side) (o : Role) : Nat :=
  ((connectionsOn r x).filter fun k => decide (k.role = o)).length

theorem count_roles (r : StepRecord) (x : Side) (o : Role) :
    ((connectionsOn r x).map (·.role)).count o = roleCount r x o := by
  rw [List.count, List.countP_map, List.countP_eq_length_filter]
  rfl

theorem leaderSide_eq (r : StepRecord) : r.connections.filter (onLeaderSide r) = connectionsOn r .leader := by
  change r.connections.filter (fun k => onLeaderSide r k) = _
  cases h : r.flags.fused <;> simp [onLeaderSide, connectionsOn, h]

theorem followerSide_eq (r : StepRecord) :
    (r.connections.filter fun k => !onLeaderSide r k) = connectionsOn r .follower := by
  have hside : ∀ x : Side, (!decide (x = .leader)) = decide (x = .follower) := by rintro (_ | _) <;> rfl
  cases h : r.flags.fused <;> simp [onLeaderSide, connectionsOn, h, hside]

/-- Each role but GD at most once on a side. -/
theorem forall_ne_gd_iff (f : Role → Nat) :
    (∀ o, o ≠ .gd → f o ≤ 1) ↔ f .hi ≤ 1 ∧ f .lo ≤ 1 ∧ f .sh ≤ 1 ∧ f .sl ≤ 1 := by
  constructor
  · exact fun h => ⟨h _ (by decide), h _ (by decide), h _ (by decide), h _ (by decide)⟩
  · rintro ⟨hhi, hlo, hsh, hsl⟩ o ho
    cases o <;> first | assumption | exact absurd rfl ho

theorem rolesOk_iff (r : StepRecord) :
    rolesOk r = true ↔
      roleCount r .leader .hi = 1 ∧ roleCount r .leader .lo = 1 ∧ roleCount r .leader .sh ≤ 1 ∧
        roleCount r .leader .sl = roleCount r .leader .sh ∧
        (r.flags.fused = true → connectionsOn r .follower ≠ [] ∧ ∀ o, o ≠ .gd → roleCount r .follower o ≤ 1) := by
  rw [forall_ne_gd_iff]
  simp only [rolesOk, leaderSide_eq, followerSide_eq, count_roles]
  cases r.flags.fused <;> simp [and_assoc]

theorem limitPairOk_iff (low high : Option Int) :
    limitPairOk low high = true ↔ ∀ l h, low = some l → high = some h → l ≤ h := by
  cases low <;> cases high <;> simp [limitPairOk]

theorem limitsOk_iff (r : StepRecord) :
    limitsOk r = true ↔
      (∀ l h, r.low = some l → r.high = some h → l ≤ h) ∧
        (r.flags.fused = true → ∀ l h, r.followerLow = some l → r.followerHigh = some h → l ≤ h) := by
  cases hf : r.flags.fused <;> simp [limitsOk, hf, limitPairOk_iff]

/-! #### Translation in list order -/

theorem translateAll_first_error {fix : Fixed} {pre post : List Connection} {k : Connection} {err : AdmissionError}
    (hpre : ∀ j ∈ pre, ∃ p, translate fix j.logical = .ok p) (hk : translate fix k.logical = .error err) :
    translateAll fix (pre ++ k :: post) = .error err := by
  induction pre with
  | nil => simp [translateAll, hk]
  | cons j pre ih =>
    obtain ⟨p, hp⟩ := hpre j (by simp)
    simp [translateAll, hp, ih fun i hi => hpre i (by simp [hi])]

theorem translateAll_of_map {fix : Fixed} {ks : List Connection} {ps : List Nat}
    (h : ks.map (fun k => translate fix k.logical) = ps.map Except.ok) : translateAll fix ks = .ok ps := by
  induction ks generalizing ps with
  | nil =>
    obtain rfl : ps = [] := by simpa [eq_comm] using h
    rfl
  | cons k ks ih =>
    cases ps with
    | nil => simp at h
    | cons p ps =>
      simp only [List.map_cons, List.cons.injEq] at h
      simp [translateAll, h.1, ih h.2]

/-- The number of the bus that a connection requires (R20). -/
theorem requiredBus_val {fix : Fixed} {n : LaneId} {r : StepRecord} (h : fuseOk fix n r = true) (k : Connection) :
    (requiredBus n r k).val =
      5 * (if r.flags.fused = true ∧ k.side = .follower then n.val + 1 else n.val) +
        match k.role with | .hi => 0 | .lo => 1 | .sh => 2 | .sl => 3 | .gd => 4 := by
  have hlane : (if onLeaderSide r k then n else followerOf n).val =
      if r.flags.fused = true ∧ k.side = .follower then n.val + 1 else n.val := by
    rcases (fuseOk_iff fix n r).1 h with hf | ⟨hn, _⟩
    · simp [onLeaderSide, hf]
    · cases hf : r.flags.fused
      · simp [onLeaderSide, hf]
      · cases hs : k.side
        · simp [onLeaderSide, hs]
        · rcases hn with rfl | rfl <;> simp [onLeaderSide, hf, hs, followerOf]
  simp only [requiredBus, busOf, hlane]
  cases k.role <;> simp [Role.index, Nat.mul_comm]

section Check

variable {fix : Fixed} {n : LaneId} {r : StepRecord}

theorem admissionCheck_fuse (h : fuseOk fix n r ≠ true) : admissionCheck fix n r = .error .fuse := by
  simp [admissionCheck, h]

theorem admissionCheck_roles (hf : fuseOk fix n r = true) (h : rolesOk r ≠ true) :
    admissionCheck fix n r = .error .roles := by
  simp [admissionCheck, hf, h]

theorem admissionCheck_limits (hf : fuseOk fix n r = true) (hr : rolesOk r = true) (h : limitsOk r ≠ true) :
    admissionCheck fix n r = .error .limits := by
  simp [admissionCheck, hf, hr, h]

theorem admissionCheck_untranslated (hf : fuseOk fix n r = true) (hr : rolesOk r = true) (hl : limitsOk r = true)
    {err : AdmissionError} (h : translateAll fix r.connections = .error err) :
    admissionCheck fix n r = .error err := by
  simp [admissionCheck, hf, hr, hl, h]

theorem admissionCheck_translated (hf : fuseOk fix n r = true) (hr : rolesOk r = true) (hl : limitsOk r = true)
    {ps : List Nat} (h : translateAll fix r.connections = .ok ps) :
    admissionCheck fix n r =
      if ps.Nodup then .ok (ps.zip (r.connections.map (requiredBus n r))) else .error .duplicate := by
  simp [admissionCheck, hf, hr, hl, h]

end Check

/-- Settles O17: each check is one of the four conditions, and translation is read off the list of connections. -/
theorem admissionChecksInOrder : Obligations.AdmissionChecksInOrder := by
  intro fix n r
  refine ⟨fun hf => admissionCheck_fuse fun h => hf ((fuseOk_iff fix n r).1 h), fun hf hr =>
    admissionCheck_roles ((fuseOk_iff fix n r).2 hf) fun h => hr ((rolesOk_iff r).1 h), fun hf hr hl =>
    admissionCheck_limits ((fuseOk_iff fix n r).2 hf) ((rolesOk_iff r).2 hr) fun h => hl ((limitsOk_iff r).1 h),
    fun hf hr hl => ?_⟩
  have hfuse := (fuseOk_iff fix n r).2 hf
  have hroles := (rolesOk_iff r).2 hr
  have hlimits := (limitsOk_iff r).2 hl
  refine ⟨fun pre k post err hks hpre hk => ?_, fun ps hps => ?_⟩
  · exact admissionCheck_untranslated hfuse hroles hlimits (hks ▸ translateAll_first_error hpre hk)
  · have hlen : ps.length = r.connections.length := by simpa using (congrArg List.length hps).symm
    rw [admissionCheck_translated hfuse hroles hlimits (translateAll_of_map hps)]
    refine ⟨fun hd => if_neg hd, fun hd => ⟨_, if_pos hd, ?_, ?_⟩⟩
    · exact List.map_fst_zip (by simp [hlen])
    · rw [show (fun p : Nat × Fin 20 => p.2.val) = Fin.val ∘ Prod.snd from rfl, ← List.map_map,
        List.map_snd_zip (by simp [hlen]), List.map_map]
      exact List.map_congr_left fun k _ => requiredBus_val hfuse k

/-! ### FIXTURE_CONFIG -/

theorem fixtureValuesOk_iff (count close release : Nat) :
    fixtureValuesOk count close release = true ↔
      count % 64 = 0 ∧ 64 ≤ count ∧ count ≤ 4096 ∧ 1 ≤ close ∧ close ≤ 1023 ∧ 1 ≤ release ∧ release ≤ 1023 := by
  simp [fixtureValuesOk]

theorem forall_mem_allLanes (P : LaneId → Prop) : (∀ n ∈ allLanes, P n) ↔ ∀ n, P n := by
  refine ⟨fun h n => h n ?_, fun h n _ => h n⟩
  revert n; decide

/-- What every listed entry has, and the reset value has, every node has. -/
theorem forall_node_iff {w : Work} (h : entriesWf w.nodes.entries) {P : NodeEntry → Prop} (h0 : P .reset) :
    (∀ p ∈ w.nodes.entries, P p.2) ↔ ∀ n, P (w.node n) := by
  constructor
  · intro he n
    by_cases hn : w.node n = .reset
    · rw [hn]; exact h0
    · exact he _ (mem_of_entryAt hn)
  · rintro hn ⟨n, x⟩ hp
    have := hn n
    rwa [Work.node, entryAt_of_mem h hp] at this

theorem Work.isIdle_iff {w : Work} (h : entriesWf w.nodes.entries) :
    w.isIdle = true ↔
      (∀ n : LaneId, (w.lane n).run = .stopped ∧ (w.lane n).cur = none) ∧
        ∀ n, (w.node n).phase = .opened ∧ (w.node n).holder = .none := by
  rw [← forall_node_iff (P := fun x => x.phase = .opened ∧ x.holder = .none) h ⟨rfl, rfl⟩,
    ← forall_mem_allLanes fun n : LaneId => (w.lane n).run = .stopped ∧ (w.lane n).cur = none]
  simp [Work.isIdle]

/-- Settles O19: the two checks of R40, with the idle condition read over every node. -/
theorem fixtureConfigSetsThreeValues : Obligations.FixtureConfigSetsThreeValues := by
  intro s count close release good idle hwf
  have hgood : fixtureValuesOk count.toNat close.toNat release.toNat = true ↔ good := fixtureValuesOk_iff _ _ _
  have hidle : s.work.isIdle = true ↔ idle := Work.isIdle_iff hwf
  change (¬ good → execFixtureConfig count close release s = _) ∧ (good → ¬ idle →
    execFixtureConfig count close release s = _) ∧ (good → idle → execFixtureConfig count close release s = _)
  unfold execFixtureConfig
  refine ⟨fun hg => ?_, fun hg hi => ?_, fun hg hi => ?_⟩
  · rw [if_pos (Bool.eq_false_iff.2 (mt hgood.1 hg))]; rfl
  · rw [if_neg (by simp [hgood.2 hg]), if_pos (Bool.eq_false_iff.2 (mt hidle.1 hi))]; rfl
  · rw [if_neg (by simp [hgood.2 hg]), if_neg (by simp [hidle.2 hi])]

end Sys2Proof.Machine
end

section
/-! PROOFS, family 02_the_node_map.md: the claim and release tables, failed claims, manual holds and the linger list. -/

namespace Sys2Proof.Machine

/-! ### Withdrawal -/

/-- A withdrawal abandons the shift of its own frame alone (R50). -/
theorem shift_withdraw (x : Option Shift) (g : Frame) :
    (x.map fun s => if s.kind = .frame g then { s with kind := .abandoned } else s) =
      match x with
      | some ⟨.frame f, ends⟩ => some ⟨if f = g then .abandoned else .frame f, ends⟩
      | y => y := by
  rcases x with _ | ⟨k, ends⟩
  · rfl
  · cases k with
    | frame f => by_cases hf : f = g <;> simp [hf]
    | abandoned => simp
    | openAll k => simp

theorem Work.withdraw_chain (w : Work) (g : Frame) :
    (w.withdraw g).chain =
      { w.chain with
        queue := w.chain.queue.filter (· != g)
        shift :=
          match w.chain.shift with
          | some ⟨.frame f, ends⟩ => some ⟨if f = g then .abandoned else .frame f, ends⟩
          | y => y } := by
  rw [← shift_withdraw]
  rfl

/-! ### The claim table -/

section ClaimTable

variable (w : Work) (h : Holder) (n : Nat) (b : Fin 20)

/-- What a claim may change of the part. -/
theorem Work.takeNode_frame :
    w.takeNode h n b =
      { w with nodes := { w.nodes with entries := (w.takeNode h n b).nodes.entries
                                       linger := (w.takeNode h n b).nodes.linger }
               chain := { w.chain with queue := (w.takeNode h n b).chain.queue
                                       shift := (w.takeNode h n b).chain.shift }
               wake := (w.takeNode h n b).wake, freed := (w.takeNode h n b).freed } := by
  cases hr : w.claimRow n b <;> simp only [Work.takeNode, hr] <;> rfl

variable {w n b}

theorem Work.claimRow_opened (hp : (w.node n).phase = .opened) (ht : (w.node n).target = none) :
    w.claimRow n b = .r1 := by simp [Work.claimRow, hp, ht]

theorem Work.claimRow_opening (hp : (w.node n).phase = .opening) : w.claimRow n b = .r7 := by simp [Work.claimRow, hp]

theorem Work.claimRow_closing (hp : (w.node n).phase = .closing) (hd : (w.node n).due = true) :
    w.claimRow n b = if (w.node n).bus = some b then .r8 else .r9 := by simp [Work.claimRow, hp, hd]

theorem Work.claimRow_openQueued (hp : (w.node n).phase = .closed) (hq : w.chain.openQueued n = true) :
    w.claimRow n b = if (w.node n).bus = some b then .r4 else .r6 := by simp [Work.claimRow, hp, hq]

theorem Work.claimRow_lingering (hp : (w.node n).phase = .closed) (hq : w.chain.openQueued n = false)
    (hl : (w.lingering n).isSome = true) : w.claimRow n b = if (w.node n).bus = some b then .r2 else .r5 := by
  simp [Work.claimRow, hp, hq, hl]

theorem Work.claimRow_due (hp : (w.node n).phase = .closed) (hq : w.chain.openQueued n = false)
    (hl : w.lingering n = none) (hd : (w.node n).due = true) :
    w.claimRow n b = if (w.node n).bus = some b then .r3 else .r5 := by
  simp [Work.claimRow, hp, hq, hl, hd]

end ClaimTable

theorem Work.lingering_of_unlingered {w v : Work} {n : Nat}
    (h : v.nodes.linger = w.nodes.linger.filter fun p => p.1 != n) : v.lingering n = none :=
  (Work.lingering_congr (w := w.unlinger n) h n).trans (w.lingering_unlinger n)

/-- Settles O26: the row that the node's entry matches, and what that row of R22 does. -/
theorem claimTableTakesANode : Obligations.ClaimTableTakesANode := by
  intro w h n b x t lingers unlingered
  refine ⟨fun m hm => w.node_takeNode_ne h b hm, w.takeNode_frame h n b, fun hp ht => ?_, fun hp hb hq hl => ?_,
    fun hp hb hq hl hd => ?_, fun hp hb hq => ?_, fun hp hb hq hl => ?_, fun hp hb hq => ?_, fun hp => ?_,
    fun hp hd hb => ?_, fun hp hd hb => ?_⟩
  · have hrow : w.claimRow n b = .r1 := Work.claimRow_opened hp ht
    simp only [t, lingers, Work.takeNode, hrow]
    exact ⟨by simp [x], rfl, rfl⟩
  · have hrow : w.claimRow n b = .r2 := (Work.claimRow_lingering hp hq hl).trans (if_pos hb)
    have hu : unlingered := by simp only [unlingered, t, Work.takeNode, hrow]; rfl
    refine ⟨?_, hu, Work.lingering_of_unlingered hu, ?_⟩ <;> simp [t, x, Work.takeNode, hrow]
  · have hrow : w.claimRow n b = .r3 := (Work.claimRow_due hp hq hl hd).trans (if_pos hb)
    simp only [t, lingers, Work.takeNode, hrow]
    exact ⟨by simp [x], rfl, rfl⟩
  · have hrow : w.claimRow n b = .r4 := (Work.claimRow_openQueued hp hq).trans (if_pos hb)
    simp only [t, lingers, Work.takeNode, hrow]
    exact ⟨by simp [x], rfl, rfl, rfl, Work.withdraw_chain _ _⟩
  · have hrow : w.claimRow n b = .r5 := by
      cases hw : w.lingering n with
      | some u => exact (Work.claimRow_lingering hp hq (by simp [hw])).trans (if_neg hb)
      | none => exact (Work.claimRow_due hp hq hw (by simpa [hw] using hl)).trans (if_neg hb)
    have hu : unlingered := by simp only [unlingered, t, Work.takeNode, hrow]; rfl
    refine ⟨by simp [t, x, Work.takeNode, hrow], hu, Work.lingering_of_unlingered hu, ?_⟩
    simp only [t, Work.takeNode, hrow]; rfl
  · have hrow : w.claimRow n b = .r6 := (Work.claimRow_openQueued hp hq).trans (if_neg hb)
    simp only [t, lingers, Work.takeNode, hrow]
    exact ⟨by simp [x], rfl, rfl⟩
  · have hrow : w.claimRow n b = .r7 := Work.claimRow_opening hp
    simp only [t, lingers, Work.takeNode, hrow]
    exact ⟨by simp [x], rfl, rfl⟩
  · have hrow : w.claimRow n b = .r8 := (Work.claimRow_closing hp hd).trans (if_pos hb)
    simp only [t, lingers, Work.takeNode, hrow]
    exact ⟨by simp [x], rfl, rfl⟩
  · have hrow : w.claimRow n b = .r9 := (Work.claimRow_closing hp hd).trans (if_neg hb)
    simp only [t, lingers, Work.takeNode, hrow]
    exact ⟨by simp [x], rfl, rfl⟩

/-! ### The release table -/

/-- A list parted before its first entry that expires, or completes, later than a time. -/
structure PartedAt {α : Type} (ls pre post : List (α × Time)) (t : Time) : Prop where
  parts : ls = pre ++ post
  before : ∀ p ∈ pre, earlier t p.2 = false
  behind : ∀ p, post.head? = some p → earlier t p.2 = true

theorem insertLinger_parted (n : Nat) (t : Time) (ls : List (Nat × Time)) :
    ∃ pre post, PartedAt ls pre post t ∧ insertLinger n t ls = pre ++ (n, t) :: post := by
  induction ls with
  | nil => exact ⟨[], [], ⟨rfl, by simp, by simp⟩, rfl⟩
  | cons p ls ih =>
    obtain ⟨k, u⟩ := p
    by_cases hu : earlier t u = true
    · exact ⟨[], (k, u) :: ls, ⟨rfl, by simp, by simpa using hu⟩, by simp [insertLinger, hu]⟩
    · obtain ⟨pre, post, ⟨hls, hpre, hpost⟩, hins⟩ := ih
      refine ⟨(k, u) :: pre, post, ⟨by simp [hls], ?_, hpost⟩, by simp [insertLinger, hu, hins]⟩
      intro p hp
      rcases List.mem_cons.1 hp with rfl | hp
      · simpa using hu
      · exact hpre p hp

section AddLinger

variable {w : Work}

theorem Work.addLinger_fits (n : Nat) (t : Time) (h : w.nodes.linger.length < 128) :
    w.addLinger n t = { w with nodes := { w.nodes with linger := insertLinger n t w.nodes.linger } } := by
  have hlen := Keeping.length_insertLinger n t w.nodes.linger
  unfold Work.addLinger; dsimp only; split
  · exact if_neg (by simp only [Config.lingerCap]; omega)
  · next hnil => simp [hnil] at hlen

theorem Work.addLinger_full {n k : Nat} {t u : Time} {rest : List (Nat × Time)} (h : 128 ≤ w.nodes.linger.length)
    (hk : insertLinger n t w.nodes.linger = (k, u) :: rest) :
    w.addLinger n t = ({ w with nodes := { w.nodes with linger := rest } } : Work).setDue k := by
  have hlen := Keeping.length_insertLinger n t w.nodes.linger
  unfold Work.addLinger; simp only [hk]
  rw [hk] at hlen
  exact if_pos (by simp only [Config.lingerCap]; omega)

theorem Work.addLinger_chain (n : Nat) (t : Time) : (w.addLinger n t).chain = w.chain := by
  unfold Work.addLinger; dsimp only; split
  · split <;> rfl
  · rfl

end AddLinger

/-- The node's entry once it is released: with no holder and no target. -/
def NodeEntry.freed (x : NodeEntry) : NodeEntry := { x with holder := .none, target := none }

section Release

variable (w : Work) (n : Nat)

/-- The node is free, before its linger entry, due flag or frame is seen to. -/
def Work.freeNode : Work := { w.setNode n (w.node n).freed with wake := true }

@[simp] theorem Work.node_freeNode : (w.freeNode n).node n = (w.node n).freed := Work.node_setNode w n _

theorem Work.node_freeNode_ne {m : Nat} (h : m ≠ n) : (w.freeNode n).node m = w.node m := Work.node_setNode_ne w _ h

/-- The table of R28 at the freed node. -/
theorem Work.releaseNode_eq (linger : Option Time) :
    w.releaseNode n linger =
      match (w.node n).phase, (w.node n).target with
      | .closed, none =>
        match linger with
        | some t => (w.freeNode n).addLinger n t
        | none => (w.freeNode n).setDue n
      | .closing, none => (w.freeNode n).setDue n
      | .opened, some b =>
        if w.chain.closeQueued n then (w.freeNode n).withdraw (.close n b)
        else
          { w.freeNode n with
            chain := { w.chain with waiting := w.chain.waiting.filter fun p => p.1 != n } }
      | _, _ => w.freeNode n := rfl

variable {w n} (linger : Option Time)

theorem Work.releaseNode_lingers {t : Time} (hp : (w.node n).phase = .closed) (ht : (w.node n).target = none) :
    w.releaseNode n (some t) = (w.freeNode n).addLinger n t := by
  simp only [Work.releaseNode_eq, hp, ht]

theorem Work.releaseNode_due (hp : (w.node n).phase = .closed) (ht : (w.node n).target = none) :
    w.releaseNode n none = (w.freeNode n).setDue n := by
  simp only [Work.releaseNode_eq, hp, ht]

theorem Work.releaseNode_closing (hp : (w.node n).phase = .closing) (ht : (w.node n).target = none) :
    w.releaseNode n linger = (w.freeNode n).setDue n := by
  simp only [Work.releaseNode_eq, hp, ht]

theorem Work.releaseNode_withdraws {b : Fin 20} (hp : (w.node n).phase = .opened)
    (ht : (w.node n).target = some b) (hq : w.chain.closeQueued n = true) :
    w.releaseNode n linger = (w.freeNode n).withdraw (.close n b) := by
  simp only [Work.releaseNode_eq, hp, ht, hq, if_true]

theorem Work.releaseNode_waiting (hp : (w.node n).phase = .opened)
    (ht : (w.node n).target ≠ none) (hq : w.chain.closeQueued n = false) :
    w.releaseNode n linger =
      { w.freeNode n with
        chain := { w.chain with waiting := w.chain.waiting.filter fun p => p.1 != n } } := by
  obtain ⟨b, hb⟩ := Option.ne_none_iff_exists'.1 ht
  simp only [Work.releaseNode_eq, hp, hb, hq, Bool.false_eq_true, if_false]

/-- In every other row of R28 holder and target go, and that is all. -/
theorem Work.releaseNode_plain (h : (w.node n).phase = .opening ∨ ((w.node n).phase = .opened ∧ (w.node n).target = none) ∨
    ((w.node n).target ≠ none ∧ ((w.node n).phase = .closing ∨ (w.node n).phase = .closed))) :
    w.releaseNode n linger = w.freeNode n := by
  cases hp : (w.node n).phase <;> cases ht : (w.node n).target <;> simp [hp, ht] at h <;>
    simp only [Work.releaseNode_eq, hp, ht]

end Release

/-- What a release may change of the part. -/
theorem Work.releaseNode_frame (w : Work) (n : Nat) (linger : Option Time) :
    w.releaseNode n linger =
      { w with nodes := { w.nodes with entries := (w.releaseNode n linger).nodes.entries
                                       linger := (w.releaseNode n linger).nodes.linger }
               chain := { w.chain with queue := (w.releaseNode n linger).chain.queue
                                       waiting := (w.releaseNode n linger).chain.waiting
                                       shift := (w.releaseNode n linger).chain.shift }
               wake := true, freed := (w.releaseNode n linger).freed } := by
  rw [Work.releaseNode_eq]
  split
  · split
    · unfold Work.addLinger; dsimp only; split
      · split <;> rfl
      · rfl
    · rfl
  · rfl
  · split <;> rfl
  · rfl

/-- Settles O27: the release row by row; a list that is full loses its first entry, whose node is due. -/
theorem releaseTableFreesANode : Obligations.ReleaseTableFreesANode := by
  refine ⟨fun w e a c => ⟨rfl, fun hc => ?_, fun p rest hc => ?_⟩, fun w n linger => ?_⟩
  · rw [Work.releaseStep, hc]; rfl
  · have hnodes : w.releaseStep e a c = w.releaseStep e a { c with nodes := p :: rest } := by rw [← hc]
    exact hnodes.trans (Work.releaseStep_cons w e a c p rest)
  intro x t free alone
  have hself : (w.freeNode n).node n = free := Work.node_freeNode w n
  have hother : ∀ m, m ≠ n → (w.freeNode n).node m = w.node m := fun m hm => w.node_freeNode_ne n hm
  have hdue : ((w.freeNode n).setDue n).node n = { free with due := true } := by
    rw [Work.setDue, Work.node_onNode, hself]
  have hdue' : ∀ m, m ≠ n → ((w.freeNode n).setDue n).node m = w.node m := fun m hm => by
    rw [Work.setDue, Work.node_onNode_ne _ _ hm, hother m hm]
  refine ⟨w.releaseNode_frame n linger, fun hp ht hl => ?_, fun e hp ht hl => ?_, fun hp ht => ?_, fun hp ht => ?_,
    fun b hp ht hq => ?_, fun hp ht hq => ?_, fun hp => ?_, fun hp ht => ?_⟩
  · subst hl
    have htable : t = (w.freeNode n).setDue n := Work.releaseNode_due hp ht
    simp only [alone, htable]
    exact ⟨hdue, ⟨hdue', rfl⟩, rfl⟩
  · subst hl
    have htable : t = (w.freeNode n).addLinger n e := Work.releaseNode_lingers hp ht
    obtain ⟨pre, post, ⟨hls, hpre, hpost⟩, hins⟩ := insertLinger_parted n e w.nodes.linger
    refine ⟨?_, pre, post, hls, hpre, hpost, fun hlen => ?_, fun hlen k u rest hk => ?_⟩
    · rw [htable, Work.addLinger_chain]; rfl
    · rw [htable, Work.addLinger_fits (w := w.freeNode n) n e hlen]
      exact ⟨hins, hself, hother⟩
    · rw [htable, Work.addLinger_full (w := w.freeNode n) hlen (hins.trans hk)]
      refine ⟨rfl, ?_, fun hkn => ?_, fun m hm hmk => ?_⟩
      · rw [Work.setDue, Work.node_onNode]
        by_cases hkn : k = n
        · subst hkn; rw [if_pos rfl]; exact congrArg (fun y : NodeEntry => { y with due := true }) hself
        · rw [if_neg hkn]; exact congrArg (fun y : NodeEntry => { y with due := true }) (hother k hkn)
      · rw [Work.setDue, Work.node_onNode_ne _ _ (Ne.symm hkn)]; exact hself
      · rw [Work.setDue, Work.node_onNode_ne _ _ hmk]; exact hother m hm
  · have htable : t = (w.freeNode n).setDue n := Work.releaseNode_closing linger hp ht
    simp only [alone, htable]
    exact ⟨hdue, ⟨hdue', rfl⟩, rfl⟩
  · have htable : t = w.freeNode n := Work.releaseNode_plain linger (.inr (.inr ⟨ht, .inl hp⟩))
    simp only [alone, htable]
    exact ⟨hself, ⟨hother, rfl⟩, rfl⟩
  · have htable : t = (w.freeNode n).withdraw (.close n b) := Work.releaseNode_withdraws linger hp ht hq
    simp only [alone, htable]
    exact ⟨hself, ⟨hother, rfl⟩, rfl, Work.withdraw_chain _ _⟩
  · have htable := Work.releaseNode_waiting linger hp ht hq
    change t = _ at htable
    simp only [alone, htable]
    exact ⟨hself, ⟨hother, rfl⟩, trivial⟩
  · have htable : t = w.freeNode n := Work.releaseNode_plain linger (.inl hp)
    simp only [alone, htable]
    exact ⟨hself, ⟨hother, rfl⟩, rfl⟩
  · have htable : t = w.freeNode n := Work.releaseNode_plain linger (.inr (.inr ⟨ht, .inr hp⟩))
    simp only [alone, htable]
    exact ⟨hself, ⟨hother, rfl⟩, rfl⟩

end Sys2Proof.Machine
end

section
/-! PROOFS, family 02_the_node_map.md: failed claims, manual holds, the linger list and a frame's shift end. -/

namespace Sys2Proof.Machine

/-! ### Failed claims -/

/-- The mark that a failed claim leaves on a blocked node (R24). -/
def markAfter (order : List LaneId) (a : LaneId) (x : NodeEntry) : NodeEntry :=
  { x with
    waiter :=
      match x.waiter with
      | none => some a
      | some b => if order.idxOf a < order.idxOf b then some a else some b }

theorem Work.placeMark_frame (a : LaneId) (p : Work × Bool) (n : Nat) :
    (Work.placeMark a p n).1 =
      { p.1 with nodes := { p.1.nodes with entries := (Work.placeMark a p n).1.nodes.entries } } := by
  unfold Work.placeMark; dsimp only; split
  · rfl
  · split
    · rfl
    · split <;> rfl

theorem Work.node_placeMark (a : LaneId) (p : Work × Bool) (n m : Nat) :
    (Work.placeMark a p n).1.node m =
      if m = n then markAfter p.1.nodes.order a (p.1.node n) else p.1.node m := by
  have hkeep : markAfter p.1.nodes.order a (p.1.node n) = p.1.node n →
      p.1.node m = if m = n then markAfter p.1.nodes.order a (p.1.node n) else p.1.node m := by
    intro h; split
    · next hm => rw [h, hm]
    · rfl
  unfold Work.placeMark; dsimp only; split
  · next hx => rw [Work.node_setNode_eq, show { p.1.node n with waiter := some a } =
      markAfter p.1.nodes.order a (p.1.node n) by simp [markAfter, hx]]
  · next b hx =>
    split
    · next hb => exact hkeep (by subst hb; cases hn : p.1.node n; simp_all [markAfter])
    · split
      · next hlt => rw [Work.node_setNode_eq, show { p.1.node n with waiter := some a } =
          markAfter p.1.nodes.order a (p.1.node n) by simp [markAfter, hx, hlt]]
      · next hlt => exact hkeep (by cases hn : p.1.node n; simp_all [markAfter])

theorem Work.foldl_placeMark_frame (a : LaneId) (ns : List Nat) (p : Work × Bool) :
    (ns.foldl (Work.placeMark a) p).1 =
      { p.1 with nodes := { p.1.nodes with entries := (ns.foldl (Work.placeMark a) p).1.nodes.entries } } := by
  induction ns generalizing p with
  | nil => rfl
  | cons n ns ih => rw [List.foldl_cons, ih, Work.placeMark_frame]

theorem Work.foldl_placeMark_order (a : LaneId) (ns : List Nat) (p : Work × Bool) :
    (ns.foldl (Work.placeMark a) p).1.nodes.order = p.1.nodes.order := by rw [Work.foldl_placeMark_frame]

/-- A failed claim changes a node's mark alone, and no node that is not blocked. -/
theorem Work.node_foldl_placeMark (a : LaneId) (ns : List Nat) (p : Work × Bool) (m : Nat) :
    (ns.foldl (Work.placeMark a) p).1.node m =
        { p.1.node m with waiter := ((ns.foldl (Work.placeMark a) p).1.node m).waiter } ∧
      (m ∉ ns → (ns.foldl (Work.placeMark a) p).1.node m = p.1.node m) := by
  induction ns generalizing p with
  | nil => exact ⟨rfl, fun _ => rfl⟩
  | cons n ns ih =>
    obtain ⟨hwaiter, hfar⟩ := ih (Work.placeMark a p n)
    have hnode := Work.node_placeMark a p n m
    constructor
    · rw [List.foldl_cons, hwaiter, hnode]
      split
      · next hm => subst hm; rfl
      · rfl
    · intro hm
      rw [List.mem_cons, not_or] at hm
      rw [List.foldl_cons, hfar hm.2, hnode, if_neg hm.1]

theorem Work.node_foldl_placeMark_mem (a : LaneId) {ns : List Nat} (hd : ns.Nodup) (p : Work × Bool) {m : Nat}
    (hm : m ∈ ns) :
    (ns.foldl (Work.placeMark a) p).1.node m = markAfter p.1.nodes.order a (p.1.node m) := by
  induction ns generalizing p with
  | nil => simp at hm
  | cons n ns ih =>
    rw [List.nodup_cons] at hd
    have hnode := Work.node_placeMark a p n m
    rw [List.foldl_cons]
    rcases List.mem_cons.1 hm with rfl | hm
    · rw [(Work.node_foldl_placeMark a ns _ m).2 hd.1, hnode, if_pos rfl]
    · have hne : m ≠ n := fun h => hd.1 (h ▸ hm)
      rw [ih hd.2 _ hm, Work.placeMark_frame]
      rw [if_neg hne] at hnode
      exact congrArg (markAfter p.1.nodes.order a) hnode

section Claim

variable {w : Work} {a : LaneId} {c : CurStep}

/-- The nodes of a claim that are blocked (R20). -/
def Work.blockedNodes (w : Work) (a : LaneId) (c : CurStep) : List Nat :=
  (c.nodes.map (·.1)).filter (w.blockedFor a)

theorem Work.tryClaim_idle (e : Env) (hc : (w.lane a).cur = some c)
    (h : ¬ ((w.lane a).run = .running ∧ c.phase = .claim ∧ a ∈ w.nodes.order)) : w.tryClaim e a = (w, false) := by
  simp [Work.tryClaim, hc, h]

theorem Work.tryClaim_blocked (e : Env) (hc : (w.lane a).cur = some c)
    (h : (w.lane a).run = .running ∧ c.phase = .claim ∧ a ∈ w.nodes.order) (hb : w.blockedNodes a c ≠ []) :
    w.tryClaim e a = w.placeMarks a (w.blockedNodes a c) := by
  simp only [Work.tryClaim, hc, h, and_self, if_true]
  exact if_pos hb

theorem Work.tryClaim_short (e : Env) (hc : (w.lane a).cur = some c)
    (h : (w.lane a).run = .running ∧ c.phase = .claim ∧ a ∈ w.nodes.order) (hb : w.blockedNodes a c = [])
    (hs : w.chain.freeSlots < w.framesNeeded c.nodes) : w.tryClaim e a = (w, false) := by
  simp only [Work.tryClaim, hc, h, and_self, if_true]
  exact (if_neg (not_not_intro hb)).trans (if_pos hs)

theorem Work.tryClaim_granted (e : Env) (hc : (w.lane a).cur = some c)
    (h : (w.lane a).run = .running ∧ c.phase = .claim ∧ a ∈ w.nodes.order) (hb : w.blockedNodes a c = [])
    (hs : w.framesNeeded c.nodes ≤ w.chain.freeSlots) : w.tryClaim e a = w.takeClaim e a c := by
  simp only [Work.tryClaim, hc, h, and_self, if_true]
  exact (if_neg (not_not_intro hb)).trans (if_neg (Nat.not_lt.2 hs))

end Claim

/-- Settles O28: a claim that fails on blocked nodes places marks in one fold over them; any other changes nothing. -/
theorem failedClaimChangesOnlyMarks : Obligations.FailedClaimChangesOnlyMarks := by
  intro w e a c hc t blocked claims
  have hmem : ∀ n, n ∈ w.blockedNodes a c ↔ blocked n := fun n => by
    simp only [Work.blockedNodes, List.mem_filter, Work.blockedFor_iff, blocked]
  have hmarks : claims → (∃ n, blocked n) → t = ((w.blockedNodes a c).foldl (Work.placeMark a) (w, false)).1 := by
    rintro hcl ⟨n, hn⟩
    have hne : w.blockedNodes a c ≠ [] := fun h => by simpa [h] using (hmem n).2 hn
    exact congrArg Prod.fst (Work.tryClaim_blocked e hc hcl hne)
  have hidle : ¬ claims → t = w := fun hcl => congrArg Prod.fst (Work.tryClaim_idle e hc hcl)
  refine ⟨fun hb => ?_, fun hcl n hn hd => ?_, fun hb hs => ?_⟩
  · by_cases hcl : claims
    · rw [hmarks hcl hb]
      have hnode := Work.node_foldl_placeMark a (w.blockedNodes a c) (w, false)
      exact ⟨Work.foldl_placeMark_frame _ _ _, fun n => (hnode n).1, fun n hn => (hnode n).2 (mt (hmem n).1 hn)⟩
    · rw [hidle hcl]
      exact ⟨rfl, fun _ => rfl, fun _ _ => rfl⟩
  · have hnode := Work.node_foldl_placeMark_mem a (ns := w.blockedNodes a c) (hd.filter _) (w, false) ((hmem n).2 hn)
    rw [hmarks hcl ⟨n, hn⟩, hnode]
    rfl
  · by_cases hcl : claims
    · have hnil : w.blockedNodes a c = [] := List.eq_nil_iff_forall_not_mem.2 fun n hn => hb n ((hmem n).1 hn)
      exact congrArg Prod.fst (Work.tryClaim_short e hc hcl hnil hs)
    · exact hidle hcl

/-! ### Due nodes -/

/-- The node gets its OPEN frame once a slot is free (R32). -/
def NodeEntry.wantsOpen (x : NodeEntry) : Bool := x.due && decide (x.phase = .closed)

theorem Work.dueNodes_eq (w : Work) : w.dueNodes = (w.nodes.entries.filter fun p => p.2.wantsOpen).map (·.1) := rfl

theorem Work.dueNodes_eq_nil_iff (w : Work) : w.dueNodes = [] ↔ ∀ p ∈ w.nodes.entries, p.2.wantsOpen = false := by
  simp [Work.dueNodes_eq, List.filter_eq_nil_iff]

theorem NodeEntry.reset_wantsOpen : NodeEntry.reset.wantsOpen = false := rfl

theorem Work.wantsOpen_of_dueNodes {w : Work} (h : w.dueNodes = []) (n : Nat) : (w.node n).wantsOpen = false := by
  by_cases hn : w.node n = .reset
  · rw [hn, NodeEntry.reset_wantsOpen]
  · exact w.dueNodes_eq_nil_iff.1 h _ (mem_of_entryAt hn)

theorem Work.not_due_of_dueNodes {w : Work} (h : w.dueNodes = []) {n : Nat} (hp : (w.node n).phase = .closed) :
    (w.node n).due = false := by
  simpa [NodeEntry.wantsOpen, hp] using Work.wantsOpen_of_dueNodes h n

theorem mem_putEntry {es : List (Nat × NodeEntry)} {n : Nat} {x : NodeEntry} {p : Nat × NodeEntry}
    (h : p ∈ putEntry es n x) : p = (n, x) ∨ p ∈ es := by
  unfold putEntry at h
  split at h
  · exact .inr (List.mem_filter.1 h).1
  · exact (mem_insertEntry h).imp_right fun h => (List.mem_filter.1 h).1

theorem Work.dueNodes_setNode {w : Work} (h : w.dueNodes = []) (n : Nat) {x : NodeEntry} (hx : x.wantsOpen = false) :
    (w.setNode n x).dueNodes = [] := by
  rw [Work.dueNodes_eq_nil_iff] at h ⊢
  intro p hp
  rcases mem_putEntry hp with rfl | hp
  · exact hx
  · exact h p hp

theorem filter_insertEntry_one {es : List (Nat × NodeEntry)} {n : Nat} {x : NodeEntry} {q : Nat × NodeEntry → Bool}
    (h : ∀ p ∈ es, q p = false) (hx : q (n, x) = true) : (insertEntry n x es).filter q = [(n, x)] := by
  induction es with
  | nil => simp [insertEntry, hx]
  | cons p es ih =>
    have hp := h p (by simp)
    have hes : ∀ p ∈ es, q p = false := fun p hp => h p (by simp [hp])
    simp only [insertEntry]; split
    · rw [List.filter_cons_of_pos hx, List.filter_cons_of_neg (by simp [hp]),
        List.filter_eq_nil_iff.2 fun p hp => by simp [hes p hp]]
    · rw [List.filter_cons_of_neg (by simp [hp]), ih hes]

theorem Work.dueNodes_setNode_due {w : Work} (h : w.dueNodes = []) (n : Nat) {x : NodeEntry}
    (hx : x.wantsOpen = true) : (w.setNode n x).dueNodes = [n] := by
  rw [Work.dueNodes_eq_nil_iff] at h
  have hne : x ≠ .reset := fun he => by rw [he, NodeEntry.reset_wantsOpen] at hx; simp at hx
  have hrest : ∀ p ∈ w.nodes.entries.filter (fun p => p.1 != n), p.2.wantsOpen = false :=
    fun p hp => h p (List.mem_filter.1 hp).1
  simp only [Work.dueNodes_eq, Work.setNode, putEntry, if_neg hne]
  rw [filter_insertEntry_one hrest hx]
  rfl

/-- With one due node and no waiting target, the slots serve that node. -/
theorem Work.serveSlots_one {w : Work} {n : Nat} (hw : w.chain.waiting = []) (hd : w.dueNodes = [n]) :
    w.serveSlots = if w.chain.queue.length < 64 then w.openDue n else w := by
  have hfree : w.chain.freeSlots = 64 - w.chain.queue.length := by simp [Chain.freeSlots, hw, Config.frameQueueCap]
  rw [Work.serveSlots, Work.moveWaiting_none hw, Work.dueProcessing, hd, hfree]
  split
  · rw [List.take_of_length_le (by simp; omega)]; rfl
  · rw [show 64 - w.chain.queue.length = 0 by omega]; rfl

/-! ### Marks -/

theorem Work.unmarked_eq {w : Work} (h : w.rested) : { w with wake := false, freed := false } = w := by
  cases w
  obtain ⟨rfl, rfl⟩ := h
  rfl

/-- The end of an event in a part in which nobody waits, after an update that may free a slot. -/
theorem Work.finish_of_calm {w : Work} (ho : w.nodes.order = []) (hq : w.chain.waiting = []) (hd : w.dueNodes = [])
    (hm : w.Marked) (e : Env) : w.finish e = { w with wake := false, freed := false } :=
  Work.finish_calm ho hq hd hm e

/-! ### Manual holds -/

theorem Work.takeNode_order (w : Work) (h : Holder) (n : Nat) (b : Fin 20) :
    (w.takeNode h n b).nodes.order = w.nodes.order := by rw [Work.takeNode_frame]

theorem Work.takeNode_marked {w : Work} (hw : w.rested) (h : Holder) (n : Nat) (b : Fin 20) :
    (w.takeNode h n b).Marked := by
  obtain ⟨hwake, hfreed⟩ := w.marks_takeNode h n b
  intro hf
  rw [hfreed] at hf
  rw [hwake]
  split at hf
  · next h4 => rw [if_pos h4]
  · simp [hw.2] at hf

/-- A claim makes no node wait for its OPEN frame. -/
theorem Work.dueNodes_takeNode {w : Work} (hd : w.dueNodes = []) (h : Holder) (n : Nat) (b : Fin 20) :
    (w.takeNode h n b).dueNodes = [] := by
  have hx := Work.wantsOpen_of_dueNodes hd n
  have hsame : ∀ t, (w.setNode n { w.node n with holder := h, target := t }).dueNodes = [] :=
    fun t => Work.dueNodes_setNode hd n hx
  have hnot : ∀ t, (w.setNode n { w.node n with holder := h, due := false, target := t }).dueNodes = [] :=
    fun t => Work.dueNodes_setNode hd n rfl
  cases hr : w.claimRow n b <;> simp only [Work.takeNode, hr]
  case r3 | r5 | r8 => exact hnot _
  all_goals exact hsame _

theorem Work.claimRow_ne_r4 {w : Work} {n : Nat} {b : Fin 20}
    (h : ¬ ((w.node n).bus = some b ∧ w.chain.openQueued n = true)) : w.claimRow n b ≠ .r4 := by
  intro h4
  simp only [Work.claimRow] at h4
  repeat' split at h4
  all_goals simp_all

/-- A claim that withdraws no frame leaves a rested part rested. -/
theorem Work.takeNode_rested {w : Work} (hw : w.rested) (h : Holder) {n : Nat} {b : Fin 20}
    (hr : w.claimRow n b ≠ .r4) : (w.takeNode h n b).rested := by
  obtain ⟨hwake, hfreed⟩ := w.marks_takeNode h n b
  rw [Work.rested, hwake, hfreed, if_neg hr, if_neg hr]
  exact hw

theorem Work.finish_takeNode {w : Work} (hw : w.rested) (h : Holder) {n : Nat} {b : Fin 20} (e : Env)
    (hr : w.calm ∨ ¬ ((w.node n).bus = some b ∧ w.chain.openQueued n = true)) :
    (w.takeNode h n b).finish e = { w.takeNode h n b with wake := false, freed := false } := by
  rcases hr with ⟨_, _, ho, hq, hd⟩ | hr
  · exact Work.finish_calm ((w.takeNode_order h n b).trans ho) ((w.takeNode_waiting h n b).trans hq)
      (Work.dueNodes_takeNode hd h n b) (Work.takeNode_marked hw h n b) e
  · have hrest := Work.takeNode_rested hw h (Work.claimRow_ne_r4 hr)
    rw [Work.finish_rested hrest.1, Work.unmarked_eq hrest]

section HoldNode

variable {w : Work} {n : Nat} (b : Fin 20)

theorem Work.holdNode_busy (h : (∃ a, (w.node n).holder = .lane a) ∨ (w.node n).waiter ≠ none) :
    w.holdNode n b = (w, .busy) := by
  rcases h with ⟨a, ha⟩ | hw
  · simp [Work.holdNode, ha]
  · obtain ⟨k, hk⟩ := Option.ne_none_iff_exists'.1 hw
    cases hh : (w.node n).holder <;> simp [Work.holdNode, hh, hk]

theorem Work.holdNode_held (hh : (w.node n).holder = .manual) (hw : (w.node n).waiter = none) :
    w.holdNode n b = (w, if (w.node n).bus = some b ∨ (w.node n).target = some b then .ok else .busy) := by
  simp [Work.holdNode, hh, hw]

theorem Work.holdNode_free (hh : (w.node n).holder = .none) (hw : (w.node n).waiter = none) :
    w.holdNode n b =
      if (w.claimRow n b).needsFrame = true ∧ w.chain.freeSlots = 0 then (w, .busy)
      else (w.takeNode .manual n b, .ok) := by
  simp [Work.holdNode, hh, hw]

end HoldNode

theorem busOfByte_of_val_eq {byte : Byte} {b : Fin 20} (h : b.val = byte.toNat) : busOfByte byte = some b := by
  have hlt : byte.toNat < 20 := h ▸ b.isLt
  rw [busOfByte, dif_pos hlt]
  exact congrArg some (Fin.ext h.symm)

theorem busOfByte_of_ge {byte : Byte} (h : 20 ≤ byte.toNat) : busOfByte byte = none := dif_neg (Nat.not_lt.mpr h)

theorem exec_setNode_format {s : State} {node : BitVec 16} {bus : Byte}
    (h : 20 ≤ bus.toNat ∨ s.fix.nodeCount ≤ node.toNat) :
    exec (.setNode node bus) s = .next { s with work := s.work.reply 0x0A .format [] } := by
  change execSetNode node bus s = _
  rcases h with h | h
  · simp [execSetNode, busOfByte_of_ge h]
  · cases hb : busOfByte bus <;> simp [execSetNode, hb, h]

theorem exec_setNode_unseated {s : State} {node : BitVec 16} {bus : Byte} {b : Fin 20} (hb : b.val = bus.toNat)
    (hn : node.toNat < s.fix.nodeCount) (h : s.inputs.seated.level = false) :
    exec (.setNode node bus) s = .next { s with work := s.work.reply 0x0A .unseated [] } := by
  change execSetNode node bus s = _
  simp [execSetNode, busOfByte_of_val_eq hb, Nat.not_le.2 hn, Env.isSeated, State.env, h]

theorem exec_setNode_seated {s : State} {node : BitVec 16} {bus : Byte} {b : Fin 20} (hb : b.val = bus.toNat)
    (hn : node.toNat < s.fix.nodeCount) (h : s.inputs.seated.level = true) :
    exec (.setNode node bus) s =
      .next
        { s with
          work := ((s.work.holdNode node.toNat b).1.finish s.env).reply 0x0A (s.work.holdNode node.toNat b).2 [] } := by
  change execSetNode node bus s = _
  simp [execSetNode, busOfByte_of_val_eq hb, Nat.not_le.2 hn, Env.isSeated, State.env, h]

/-- Settles O29: the manual hold is the claim of one node, and the end of its event finds nothing to hand out. -/
theorem setNodeHoldsByTheClaimTable : Obligations.SetNodeHoldsByTheClaimTable := by
  intro s node bus n x answer
  refine ⟨exec_setNode_format, fun b hb hn => ⟨exec_setNode_unseated hb hn, fun hs hrest => ?_⟩⟩
  rw [exec_setNode_seated hb hn hs]
  refine ⟨fun hbusy => ?_, fun hh hw => ?_, fun hh hw => ⟨fun hshort => ?_, fun hshort hcalm => ?_⟩⟩
  · rw [Work.holdNode_busy b hbusy, Work.finish_rested hrest.1]
  · rw [Work.holdNode_held b hh hw, Work.finish_rested hrest.1]
  · rw [Work.holdNode_free b hh hw, if_pos hshort, Work.finish_rested hrest.1]
  · rw [Work.holdNode_free b hh hw, if_neg hshort, Work.finish_takeNode hrest .manual s.env hcalm]

end Sys2Proof.Machine
end

section
/-! PROOFS, family 02_the_node_map.md: FREE_NODE, LINGER_EXPIRY and the good end of a frame's shift. -/

namespace Sys2Proof.Machine

/-! ### FREE_NODE -/

section FreeNode

variable {s : State} {node : BitVec 16}

theorem exec_freeNode_format (h : 4096 ≤ node.toNat) :
    exec (.freeNode node) s = .next { s with work := s.work.reply 0x0B .format [] } := by
  change execFreeNode node s = _
  simp [execFreeNode, Config.nodes, h]

theorem exec_freeNode_busy (h : node.toNat < 4096) {a : LaneId} (hh : (s.work.node node.toNat).holder = .lane a) :
    exec (.freeNode node) s = .next { s with work := s.work.reply 0x0B .busy [] } := by
  change execFreeNode node s = _
  simp [execFreeNode, Config.nodes, Nat.not_le.2 h, hh]

theorem exec_freeNode_free (h : node.toNat < 4096) (hh : (s.work.node node.toNat).holder = .none) :
    exec (.freeNode node) s = .next { s with work := s.work.reply 0x0B .ok [] } := by
  change execFreeNode node s = _
  simp [execFreeNode, Config.nodes, Nat.not_le.2 h, hh]

theorem exec_freeNode_manual (h : node.toNat < 4096) (hh : (s.work.node node.toNat).holder = .manual) :
    exec (.freeNode node) s =
      .next { s with work := ((s.work.releaseNode node.toNat none).finish s.env).reply 0x0B .ok [] } := by
  change execFreeNode node s = _
  simp [execFreeNode, Config.nodes, Nat.not_le.2 h, hh]

end FreeNode

theorem Work.dueNodes_freeNode {w : Work} (h : w.dueNodes = []) (n : Nat) : (w.freeNode n).dueNodes = [] :=
  Work.dueNodes_setNode (x := (w.node n).freed) h n (Work.wantsOpen_of_dueNodes h n)

theorem Work.node_setDue (w : Work) (n : Nat) : (w.setDue n).node n = { w.node n with due := true } :=
  w.node_onNode n fun x => { x with due := true }

theorem Work.node_setDue_ne (w : Work) {n m : Nat} (h : m ≠ n) : (w.setDue n).node m = w.node m :=
  w.node_onNode_ne (fun x => { x with due := true }) h

theorem Work.dueNodes_setDue {w : Work} (h : w.dueNodes = []) {n : Nat} (hp : (w.node n).phase = .closed) :
    (w.setDue n).dueNodes = [n] := Work.dueNodes_setNode_due h n (by simp [NodeEntry.wantsOpen, hp])

/-- With one node due and nobody waiting, the end of an event opens that node when a slot is free (R32). -/
theorem Work.finish_one {w : Work} {n : Nat} (ho : w.nodes.order = []) (hq : w.chain.waiting = [])
    (hd : w.dueNodes = [n]) (hwake : w.wake = true) (e : Env) :
    w.finish e =
      { (if w.chain.queue.length < 64 then w.openDue n else w) with wake := false, freed := false } := by
  rw [Work.finish_unclaimed ho hwake, Work.serveSlots_one (w := { w with wake := false, freed := false }) hq hd]
  split <;> rfl

theorem Work.node_openDue (w : Work) (n : Nat) : (w.openDue n).node n = { w.node n with due := false } :=
  w.node_onNode n fun x => { x with due := false }

theorem Work.node_openDue_ne (w : Work) {n m : Nat} (h : m ≠ n) : (w.openDue n).node m = w.node m :=
  w.node_onNode_ne (fun x => { x with due := false }) h

/-- An update of the node map's entries and of the chain, once the marks of the event are taken down, in a part in
which no trigger stood. -/
theorem Work.unmark_of_frame {w v : Work} {c : Chain} (hw : w.rested)
    (hv : v = { w with nodes := { w.nodes with entries := v.nodes.entries }, chain := c, wake := v.wake, freed := v.freed }) :
    ∃ u : Work, ({ v with wake := false, freed := false } : Work) = u ∧
      u = { w with nodes := { w.nodes with entries := u.nodes.entries }, chain := c } ∧ ∀ n, u.node n = v.node n := by
  refine ⟨_, rfl, ?_, fun n => rfl⟩
  rw [hv, hw.1, hw.2]

/-- The release of a CLOSED node whose OPEN frame finds a free slot (R28, R32). -/
theorem Work.finish_freeNode_closed {w : Work} {n : Nat} (hw : w.calm) (hp : (w.node n).phase = .closed)
    (hlt : w.chain.queue.length < 64) (e : Env) :
    ∃ v : Work, ((w.freeNode n).setDue n).finish e = v ∧
      v = { w with nodes := { w.nodes with entries := v.nodes.entries }
                   chain := { w.chain with queue := w.chain.queue ++ [.opn n] } } ∧
      v.node n = { (w.node n).freed with due := false } ∧ ∀ m, m ≠ n → v.node m = w.node m := by
  obtain ⟨hwake, hfreed, ho, hq, hd⟩ := hw
  have hdue : ((w.freeNode n).setDue n).dueNodes = [n] :=
    Work.dueNodes_setDue (Work.dueNodes_freeNode hd n) ((congrArg (·.phase) (w.node_freeNode n)).trans hp)
  have hfin := Work.finish_one (w := (w.freeNode n).setDue n) ho hq hdue rfl e
  rw [if_pos (show ((w.freeNode n).setDue n).chain.queue.length < 64 from hlt)] at hfin
  obtain ⟨v, hv, hframe, hnodes⟩ := Work.unmark_of_frame (w := w) (v := ((w.freeNode n).setDue n).openDue n)
    ⟨hwake, hfreed⟩ rfl
  refine ⟨v, hfin.trans hv, hframe, ?_, fun m hm => ?_⟩
  · rw [hnodes, Work.node_openDue, Work.node_setDue, Work.node_freeNode]
  · rw [hnodes, Work.node_openDue_ne _ hm, Work.node_setDue_ne _ hm, Work.node_freeNode_ne _ _ hm]

/-- The release of an OPEN node whose CLOSE frame is withdrawn (R28). -/
theorem Work.finish_freeNode_withdraw {w : Work} {n : Nat} {f : Frame} (hw : w.calm) (hs : w.chain.shift = none) (e : Env) :
    ∃ v : Work, ((w.freeNode n).withdraw f).finish e = v ∧
      v = { w with nodes := { w.nodes with entries := v.nodes.entries }
                   chain := { w.chain with queue := w.chain.queue.filter (· != f) } } ∧
      v.node n = (w.node n).freed ∧ ∀ m, m ≠ n → v.node m = w.node m := by
  obtain ⟨hwake, hfreed, ho, hq, hd⟩ := hw
  have hdue : ((w.freeNode n).withdraw f).dueNodes = [] := Work.dueNodes_freeNode hd n
  have hchain : ((w.freeNode n).withdraw f).chain = { w.chain with queue := w.chain.queue.filter (· != f) } := by
    rw [Work.withdraw_chain, show (w.freeNode n).chain = w.chain from rfl, hs]
    exact congrArg (fun x => ({ w.chain with queue := w.chain.queue.filter (· != f), shift := x } : Chain)) hs.symm
  obtain ⟨v, hv, hframe, hnodes⟩ := Work.unmark_of_frame (w := w) (v := (w.freeNode n).withdraw f)
    (c := ((w.freeNode n).withdraw f).chain) ⟨hwake, hfreed⟩ rfl
  rw [hchain] at hframe
  refine ⟨v, (Work.finish_of_calm (w := (w.freeNode n).withdraw f) ho hq hdue (fun _ => rfl) e).trans hv, hframe,
    (hnodes n).trans (w.node_freeNode n), fun m hm => (hnodes m).trans (w.node_freeNode_ne n hm)⟩

/-- Settles O30: the release of a manual hold, and the end of its event with that node alone due or nothing to do. -/
theorem freeNodeReleasesAManualHold : Obligations.FreeNodeReleasesAManualHold := by
  intro s node n x free answer
  refine ⟨exec_freeNode_format, fun hn => ⟨fun a => exec_freeNode_busy hn, exec_freeNode_free hn, fun hh hcalm => ?_⟩⟩
  rw [exec_freeNode_manual hn hh]
  refine ⟨fun hp ht hlt => ?_, fun b hp ht hc hs => ?_⟩
  · obtain ⟨v, hfin, hv⟩ := Work.finish_freeNode_closed hcalm hp hlt s.env
    rw [Work.releaseNode_due hp ht, hfin]
    exact ⟨v, rfl, hv⟩
  · obtain ⟨v, hfin, hv⟩ := Work.finish_freeNode_withdraw (n := n) (f := .close n b) hcalm hs s.env
    rw [Work.releaseNode_withdraws none hp ht hc, hfin]
    exact ⟨v, rfl, hv⟩

/-! ### LINGER_EXPIRY -/

theorem exec_lingerExpiry {s : State} {n : Nat} {t : Time} {rest : List (Nat × Time)}
    (hl : s.work.nodes.linger = (n, t) :: rest) (ht : reached t s.clock.time = true) :
    exec .lingerExpiry s =
      .next
        { s with
          work := (({ s.work with nodes := { s.work.nodes with linger := rest } } : Work).setDue n).serveSlots } := by
  change execLingerExpiry s = _
  simp [execLingerExpiry, lingerExpired, hl, Env.now, State.env, ht]

/-- Settles O31: the node is the one due node, and takes the slot that is free. -/
theorem lingerExpiryMakesTheNodeDue : Obligations.LingerExpiryMakesTheNodeDue := by
  intro s n t rest hl ht hq hd hp slot
  refine ⟨_, exec_lingerExpiry hl ht, ?_⟩
  obtain ⟨w, hw⟩ : ∃ w : Work, w = { s.work with nodes := { s.work.nodes with linger := rest } } := ⟨_, rfl⟩
  have hdue : (w.setDue n).dueNodes = [n] := Work.dueNodes_setDue (w := w) (by rw [hw]; exact hd) (by rw [hw]; exact hp)
  have hnode : ∀ m, w.node m = s.work.node m := by rw [hw]; exact fun _ => rfl
  rw [← hw, Work.serveSlots_one (by rw [hw]; exact hq) hdue, show (w.setDue n).chain = w.chain from rfl,
    show w.chain = s.work.chain by rw [hw]]
  by_cases hs : slot
  · simp only [if_pos hs, if_pos (show s.work.chain.queue.length < 64 from hs)]
    refine ⟨by subst hw; rfl, ?_, fun m hm => ?_⟩
    · rw [Work.node_openDue, Work.node_setDue, hnode]
    · rw [Work.node_openDue_ne _ hm, Work.node_setDue_ne _ hm, hnode]
  · simp only [if_neg hs, if_neg (show ¬ s.work.chain.queue.length < 64 from hs), List.append_nil]
    refine ⟨by subst hw; rfl, ?_, fun m hm => ?_⟩
    · rw [Work.node_setDue, hnode]
    · rw [Work.node_setDue_ne _ hm, hnode]

/-! ### A frame's shift end -/

theorem insertInflight_parted (o : Operation) (t : Time) (ls : List (Operation × Time)) :
    ∃ pre post, PartedAt ls pre post t ∧ insertInflight o t ls = pre ++ (o, t) :: post := by
  induction ls with
  | nil => exact ⟨[], [], ⟨rfl, by simp, by simp⟩, rfl⟩
  | cons p ls ih =>
    obtain ⟨k, u⟩ := p
    by_cases hu : earlier t u = true
    · exact ⟨[], (k, u) :: ls, ⟨rfl, by simp, by simpa using hu⟩, by simp [insertInflight, hu]⟩
    · obtain ⟨pre, post, ⟨hls, hpre, hpost⟩, hins⟩ := ih
      refine ⟨(k, u) :: pre, post, ⟨by simp [hls], ?_, hpost⟩, by simp [insertInflight, hu, hins]⟩
      intro p hp
      rcases List.mem_cons.1 hp with rfl | hp
      · simpa using hu
      · exact hpre p hp

theorem exec_frameShiftEnd {s : State} {f : Frame} {ends : Time} (echo : BitVec 32)
    (hs : s.work.chain.shift = some ⟨.frame f, ends⟩) (ht : reached ends s.clock.time = true) :
    exec (.frameShiftEnd echo) s =
      .next
        { s with
          work :=
            (if echo ≠ f.word ∧ s.work.chain.state = .ready then (s.work.endFrameShift s.env f).chainFault s.env
              else s.work.endFrameShift s.env f).finish s.env } := by
  change execFrameShiftEnd echo s = _
  simp only [execFrameShiftEnd, onWork, hs, Env.now, State.env, ht, if_true]

/-- The node that a shifted frame leaves (R48). -/
def Frame.shifted (x : NodeEntry) : Frame → NodeEntry
  | .close _ b => { x with phase := .closing, bus := some b, target := none }
  | .opn _ => { x with phase := .opening }

/-- The phase of a node whose frame takes effect. -/
def Frame.from : Frame → NodePhase
  | .close _ _ => .opened
  | .opn _ => .closed

theorem Frame.shifted_wantsOpen (f : Frame) (x : NodeEntry) : (f.shifted x).wantsOpen = false := by
  cases f <;> simp [Frame.shifted, NodeEntry.wantsOpen]

theorem Work.frameShifted_of_from {w : Work} {f : Frame} (h : (w.node f.node).phase = f.from) :
    w.frameShifted f = w.setNode f.node (f.shifted (w.node f.node)) := by
  cases f <;> exact if_pos h

theorem Work.endFrameShift_eq (w : Work) (e : Env) {f : Frame} (h : (w.node f.node).phase = f.from) :
    w.endFrameShift e f =
      { w with
        nodes := (w.setNode f.node (f.shifted (w.node f.node))).nodes
        chain :=
          { w.chain with
            queue := w.chain.queue.filter (· != f), shift := none
            inflight := insertInflight (e.inflightOf f).1 (e.inflightOf f).2 w.chain.inflight }
        wake := true, freed := true } := by
  simp only [Work.endFrameShift]
  rw [Work.frameShifted_of_from (by exact h)]
  rfl

/-- Settles O33: the frame's own effect, and the end of its event finds nothing to hand out. -/
theorem goodFramesTakeEffect : Obligations.GoodFramesTakeEffect := by
  intro s f ends hcalm hs ht x entry after hp
  obtain ⟨hwake, hfreed, ho, hq, hd⟩ := hcalm
  have hphase : (s.work.node f.node).phase = f.from := by cases f <;> exact hp
  have hdue : (s.work.endFrameShift s.env f).dueNodes = [] := by
    rw [Work.endFrameShift_eq s.work s.env hphase]
    exact Work.dueNodes_setNode hd f.node (f.shifted_wantsOpen _)
  obtain ⟨w, hw, hframe, hnodes⟩ := Work.unmark_of_frame (w := s.work) (v := s.work.endFrameShift s.env f)
    (c :=
      { s.work.chain with
        queue := s.work.chain.queue.filter (· != f), shift := none
        inflight := insertInflight (s.env.inflightOf f).1 (s.env.inflightOf f).2 s.work.chain.inflight })
    ⟨hwake, hfreed⟩ (by rw [Work.endFrameShift_eq s.work s.env hphase]; rfl)
  have hinflight : w.chain.inflight = insertInflight (s.env.inflightOf f).1 (s.env.inflightOf f).2 s.work.chain.inflight :=
    congrArg (·.chain.inflight) hframe
  have hexec := exec_frameShiftEnd f.word hs ht
  rw [if_neg fun h => h.1 rfl,
    Work.finish_of_calm (by rw [Work.endFrameShift_eq s.work s.env hphase]; exact ho)
      (by rw [Work.endFrameShift_eq s.work s.env hphase]; exact hq) hdue
      (by rw [Work.endFrameShift_eq s.work s.env hphase]; exact fun _ => rfl), hw] at hexec
  have hnode : ∀ n, w.node n = (s.work.setNode f.node (f.shifted (s.work.node f.node))).node n := fun n => by
    rw [hnodes, Work.endFrameShift_eq s.work s.env hphase]; rfl
  obtain ⟨pre, post, ⟨hin, hpre, hpost⟩, hins⟩ :=
    insertInflight_parted (s.env.inflightOf f).1 (s.env.inflightOf f).2 s.work.chain.inflight
  have hentry : entry = s.env.inflightOf f := by cases f <;> rfl
  have hafter : after = f.shifted (s.work.node f.node) := by cases f <;> rfl
  refine ⟨w, hexec, ?_, ?_, fun m hm => ?_, pre, post, hin, ?_, ?_⟩
  · rw [hinflight]; exact hframe
  · rw [hnode, Work.node_setNode, hafter]
  · rw [hnode, Work.node_setNode_ne _ _ hm]
  · rw [hinflight, hentry, ← hins]
  · rw [hentry]; exact ⟨hpre, hpost⟩

end Sys2Proof.Machine
end

section
/-! PROOFS, family 02_the_node_map.md: OPEN_ALL and the completions. -/

namespace Sys2Proof.Machine

/-! ### OPEN_ALL -/

theorem Work.dueNodes_onNodes {w : Work} {f : NodeEntry → NodeEntry}
    (h : ∀ p ∈ w.nodes.entries, (f p.2).wantsOpen = false) : (w.onNodes f).dueNodes = [] := by
  rw [Work.dueNodes_eq_nil_iff]
  intro p hp
  obtain ⟨q, hq, rfl⟩ := List.mem_map.1 (List.mem_filter.1 hp).1
  exact h q hq

theorem exec_openAllShiftBegin_old {s : State} {k : OpenAllKind} {rest : List Request}
    (hr : s.work.chain.requests = ⟨k, false⟩ :: rest) (ht : s.clock.sub = 0)
    (hs : ∀ j ends, s.work.chain.shift ≠ some ⟨.openAll j, ends⟩) :
    exec .openAllShiftBegin s =
      .next
        { s with
          work :=
            { s.work with
              chain := { s.work.chain with shift := some ⟨.openAll k, s.clock.time + 2⟩, requests := rest } } } := by
  have hopen : s.work.chain.shiftingOpenAll = false := by
    unfold Chain.shiftingOpenAll
    split
    · next hs' => exact absurd hs' (hs _ _)
    · rfl
  change execOpenAllShiftBegin s = _
  simp [execOpenAllShiftBegin, onWork, canBeginOpenAll, hr, State.env, ht, hopen, Env.shiftEnd, Env.now]

theorem exec_openAllShiftBegin_fresh {s : State} {k : OpenAllKind} {rest : List Request}
    (hr : s.work.chain.requests = ⟨k, true⟩ :: rest) : exec .openAllShiftBegin s = .next s := by
  change execOpenAllShiftBegin s = _
  simp [execOpenAllShiftBegin, onWork, canBeginOpenAll, hr]

theorem exec_openAllShiftEnd {s : State} {k : OpenAllKind} {ends : Time} (echo : BitVec 32)
    (hs : s.work.chain.shift = some ⟨.openAll k, ends⟩) (ht : reached ends s.clock.time = true) :
    exec (.openAllShiftEnd echo) s =
      .next
        { s with
          work := ((s.work.endOpenAllShift s.env).judgeOpenAll s.env k (echo = openAllWord)).finish s.env } := by
  change execOpenAllShiftEnd echo s = _
  simp only [execOpenAllShiftEnd, onWork, hs, Env.now, State.env, ht, if_true]

theorem Work.answerReset_eq (w : Work) (code : ReplyCode) :
    w.answerReset code =
      { w with port := if w.port.awaiting = true then ⟨some ⟨0x13, code, []⟩, false⟩ else w.port } := by
  unfold Work.answerReset Work.reply
  split <;> rfl

/-- A good echo: the OPEN_ALL of start-up and that of CHAIN_RESET take the chain to READY (R62, R63). -/
theorem Work.judgeOpenAll_good (w : Work) (e : Env) (k : OpenAllKind) :
    w.judgeOpenAll e k true =
      { w with
        chain := { w.chain with state := if k = .startup ∨ k = .chainReset then .ready else w.chain.state }
        port :=
          if (k = .startup ∨ k = .chainReset) ∧ w.port.awaiting = true then ⟨some ⟨0x13, .ok, []⟩, false⟩
          else w.port } := by
  cases k <;> simp [Work.judgeOpenAll, Work.answerReset_eq]

theorem NodeEntry.openedAll_wantsOpen (x : NodeEntry) : x.openedAll.wantsOpen = false := rfl

/-- Settles O35: an OPEN_ALL leaves no frame, no waiting target and no due node, so its event hands nothing out. -/
theorem openAllShiftsAndClearsTheMap : Obligations.OpenAllShiftsAndClearsTheMap := by
  intro s k
  refine ⟨fun rest => exec_openAllShiftBegin_old, fun rest => exec_openAllShiftBegin_fresh, ?_⟩
  intro ends hs ht ho hwf restarts
  have hexec := exec_openAllShiftEnd openAllWord hs ht
  have hdue : (s.work.endOpenAllShift s.env).dueNodes = [] :=
    Work.dueNodes_onNodes (w := s.work) fun p _ => p.2.openedAll_wantsOpen
  rw [decide_eq_true rfl, Work.judgeOpenAll_good, Work.finish_of_calm (by exact ho) (by rfl) (by exact hdue) fun _ => rfl] at hexec
  exact ⟨_, hexec, rfl, Work.node_onNodes hwf (f := .openedAll) rfl⟩

/-! ### One lane -/

theorem Work.onLane_onLane (w : Work) (n : LaneId) (f g : Lane → Lane) :
    (w.onLane n f).onLane n g = w.onLane n fun l => g (f l) := by
  refine Work.ext_lanes (fun m => ?_) rfl rfl rfl rfl rfl rfl rfl rfl rfl
  by_cases h : m = n
  · subst h; simp
  · simp only [Work.lane_onLane_ne _ _ h]

theorem stepLanes_single {n : LaneId} {step : StepRecord} (h : step.flags.fused = false) : stepLanes n step = [n] := by
  simp [stepLanes, fusedFollower, h]

theorem Work.driveAll_auto (w : Work) {e : Env} {n : LaneId} (src gate : Bool) (h : (e.cfg n).lineMode = .auto) :
    w.driveAll e [n] src gate = w.onLane n fun l => { l with src, gate } := if_pos h

/-! ### The end of SWITCH -/

/-- C0 as SETTLE starts it (R121, R122). -/
def CurStep.settleChannel (e : Env) (c : CurStep) : Channel :=
  if c.step.flags.adaptive then Channel.startUp e.clock c.step.flags.coarse c.settle c.step.minSettle
  else Channel.startDown e.clock c.step.flags.coarse c.settle

/-- The outcome of the settle test at the start of SETTLE: ended with this capped mark, or counting on. -/
def CurStep.settleAtStart (e : Env) (n : LaneId) (c : CurStep) : Option Bool :=
  if c.step.flags.adaptive then
    if c.step.minSettle = 0 ∧ e.inputs.stable[n.val].level = true then some false
    else if c.settle = 0 then some true else none
  else if c.settle = 0 then some false else none

/-- A channel that has ended; its count stays (R114). -/
def Channel.ended (ch : Channel) : Channel := { ch with counting := false, start := none, due := false }

theorem Channel.stop_startUp (k : Clock) (coarse : Bool) (cap minimum : Nat) :
    (Channel.startUp k coarse cap minimum).stop = (Channel.startUp k coarse cap minimum).ended := rfl

section EndSwitch

variable {w : Work} {e : Env} {n : LaneId} {c : CurStep}

theorem Work.startSettle_counts (h : c.settleAtStart e n = none) :
    w.startSettle e n c =
      (w.onLane n fun l => { l with cur := some { c with phase := .settle }, c0 := c.settleChannel e }, none) := by
  unfold CurStep.settleAtStart at h
  by_cases hup : c.step.flags.adaptive = true
  · rw [if_pos hup] at h
    have htest : (Channel.startUp e.clock c.step.flags.coarse c.settle c.step.minSettle).settleTest
        e.inputs.stable[n.val].level = none := by
      split at h
      · simp at h
      · next h1 =>
        split at h
        · simp at h
        · next h2 => simp [Channel.settleTest, Channel.startUp, Ne.symm h2]; simpa using h1
    simp [Work.startSettle, CurStep.settleChannel, hup, htest, Work.setCur, Work.onLane_onLane]
  · rw [if_neg hup] at h
    have hs : c.settle ≠ 0 := fun hs => by simp [hs] at h
    simp [Work.startSettle, CurStep.settleChannel, hup, hs, Work.setCur, Work.onLane_onLane]

theorem Work.startSettle_ends {capped : Bool} (h : c.settleAtStart e n = some capped) :
    w.startSettle e n c =
      (w.onLane n fun l => { l with cur := some { c with phase := .settle }, c0 := (c.settleChannel e).ended },
        some (0, capped)) := by
  unfold CurStep.settleAtStart at h
  by_cases hup : c.step.flags.adaptive = true
  · rw [if_pos hup] at h
    have htest : (Channel.startUp e.clock c.step.flags.coarse c.settle c.step.minSettle).settleTest
        e.inputs.stable[n.val].level = some capped := by
      split at h
      · next h1 => simp [Channel.settleTest, Channel.startUp, h1, ← h]
      · next h1 =>
        split at h
        · next h2 => simp [Channel.settleTest, Channel.startUp, h1, h2, ← h]
        · simp at h
    simp [Work.startSettle, CurStep.settleChannel, hup, htest, Work.setCur, Work.onLane_onLane,
      Channel.stop_startUp]
  · rw [if_neg hup] at h
    split at h
    · next hs =>
      obtain rfl : false = capped := by simpa using h
      simp [Work.startSettle, CurStep.settleChannel, hup, hs, Work.setCur, Work.onLane_onLane, Channel.startDown,
        Channel.ended]
    · simp at h

theorem Work.endSwitch_counts (h : c.settleAtStart e n = none) :
    w.endSwitch e n c =
      w.onLane n fun l => { l with cur := some { c with phase := .settle }, c0 := c.settleChannel e } := by
  simp only [Work.endSwitch, Work.startSettle_counts h]

theorem Work.endSwitch_waits {capped : Bool} (h : c.settleAtStart e n = some capped) (hr : c.leader.ready = false) :
    w.endSwitch e n c =
      w.onLane n fun l =>
        { l with
          cur := some { c with captured := some 0, capped, phase := .readyWait }, c0 := (c.settleChannel e).ended
          c3 := Channel.startDown e.clock c.step.flags.coarse c.step.watch } := by
  simp [Work.endSwitch, Work.startSettle_ends h, Work.endSettle, CurStep.allReady, CurStep.settled, hr,
    Work.enterReadyWait, Work.startWatch, Work.setCur, Work.onLane_onLane]

theorem Work.endSwitch_sources {capped : Bool} (h : c.settleAtStart e n = some capped) (hr : c.leader.ready = true)
    (hf : c.step.flags.fused = false) (hd : c.step.sourceDelay ≠ 0) (hm : (e.cfg n).lineMode = .auto) :
    w.endSwitch e n c =
      w.onLane n fun l =>
        { l with
          cur := some { c with captured := some 0, capped, phase := .source }, c0 := (c.settleChannel e).ended
          src := true, gate := false
          c1 := Channel.startDown e.clock c.step.flags.coarse c.step.sourceDelay } := by
  simp [Work.endSwitch, Work.startSettle_ends h, Work.endSettle, CurStep.allReady, CurStep.settled, hr, hf,
    Work.beginSource, hd, Work.openSource, stepLanes_single hf, Work.driveAll_auto _ _ _ hm, Work.startEach,
    Work.setCur, Work.onLane_onLane]

end EndSwitch

/-! ### Completions -/

theorem Work.finishQuiet_of_no_hold {w : Work} (hm : w.Marked) {e : Env} (h : (w.finish e).chain.holds = []) :
    w.finishQuiet e = w.finish e := by
  rw [Work.finishQuiet, Work.reportQuiet_none h, Work.finish_rested (Work.finish_rests hm e).1]

section Completing

variable {s : State} {o : Operation} {t : Time} {rest : List (Operation × Time)}

theorem completing_head (hi : s.work.chain.inflight = (o, t) :: rest) (ht : reached t s.clock.time = true) :
    completing s.env s.work = some o := by
  simp [completing, hi, Env.now, State.env, ht]

/-- The part as a close's completion leaves its node (R53). -/
def Work.closedNode (w : Work) (n : Nat) : Work := w.popInflight.setNode n { w.node n with phase := .closed }

/-- The part as a release's completion leaves its node, its target not yet queued (R53). -/
def Work.openedNode (w : Work) (n : Nat) : Work := w.popInflight.setNode n { w.node n with phase := .opened, bus := none }

/-- The lane that holds a node, if one does, looks whether its SWITCH has ended (R23). -/
def Work.checkHolder (w : Work) (e : Env) : Holder → Work
  | .lane a => w.checkSwitch e a
  | .none | .manual => w

theorem Work.checkHolder_eq (w : Work) (e : Env) (h : Holder) :
    w.checkHolder e h = match h with | .lane a => w.checkSwitch e a | _ => w := by cases h <;> rfl

theorem exec_closeComplete {n : Nat} (hi : s.work.chain.inflight = (.close n, t) :: rest)
    (ht : reached t s.clock.time = true) (hp : (s.work.node n).phase = .closing) :
    exec .closeComplete s =
      .next
        { s with
          work := ((s.work.closedNode n).checkHolder s.env (s.work.node n).holder).finishQuiet s.env } := by
  have hnode : s.work.popInflight.node n = s.work.node n := rfl
  change execCloseComplete s = _
  simp only [execCloseComplete, onWork, completing_head hi ht, hnode, hp, if_true]
  rw [Work.checkHolder_eq]
  rfl

theorem exec_releaseComplete {n : Nat} (hi : s.work.chain.inflight = (.release n, t) :: rest)
    (ht : reached t s.clock.time = true) (hp : (s.work.node n).phase = .opening) :
    exec .releaseComplete s =
      .next { s with work := ((s.work.openedNode n).closeOntoTarget n).finishQuiet s.env } := by
  have hnode : s.work.popInflight.node n = s.work.node n := rfl
  change execReleaseComplete s = _
  simp only [execReleaseComplete, onWork, completing_head hi ht, hnode, hp, if_true]
  rfl

theorem exec_openAllComplete (hi : s.work.chain.inflight = (.openAll, t) :: rest) (ht : reached t s.clock.time = true) :
    exec .openAllComplete s =
      .next
        { s with
          work :=
            (((s.work.nodes.entries.filter fun p => decide (p.2.phase = .opening)).map (·.1)).foldl
              Work.closeOntoTarget (s.work.popInflight.onNodes NodeEntry.released)).finishQuiet s.env } := by
  change execOpenAllComplete s = _
  simp only [execOpenAllComplete, onWork, completing_head hi ht]

end Completing

end Sys2Proof.Machine
end

section
/-! PROOFS, family 02_the_node_map.md: what a completion leaves at the nodes, the slots and the lane of the claim. -/

namespace Sys2Proof.Machine

/-- `Work.unmark_of_frame` for an update of the lanes as well. -/
theorem Work.unmark_of_lanes {w v : Work} {c : Chain} (hw : w.rested)
    (hv : v =
      { w with
        lanes := v.lanes, nodes := { w.nodes with entries := v.nodes.entries }, chain := c, wake := v.wake
        freed := v.freed }) :
    ∃ u : Work, ({ v with wake := false, freed := false } : Work) = u ∧
      u = { w with lanes := u.lanes, nodes := { w.nodes with entries := u.nodes.entries }, chain := c } ∧
      (∀ n, u.node n = v.node n) ∧ ∀ a, u.lane a = v.lane a := by
  refine ⟨_, rfl, ?_, fun n => rfl, fun a => rfl⟩
  rw [hv, hw.1, hw.2]

theorem Work.finishQuiet_unclaimed {w v : Work} (hm : w.Marked) {e : Env} (hf : w.finish e = v) (hh : v.chain.holds = []) :
    w.finishQuiet e = v :=
  (Work.finishQuiet_of_no_hold hm (by rw [hf]; exact hh)).trans hf

section Completed

variable {w : Work} {n : Nat}

theorem Work.node_closedNode (w : Work) (n : Nat) : (w.closedNode n).node n = { w.node n with phase := .closed } :=
  w.popInflight.node_setNode n _

theorem Work.node_closedNode_ne (w : Work) {n m : Nat} (h : m ≠ n) : (w.closedNode n).node m = w.node m :=
  w.popInflight.node_setNode_ne _ h

theorem Work.node_openedNode (w : Work) (n : Nat) :
    (w.openedNode n).node n = { w.node n with phase := .opened, bus := none } :=
  w.popInflight.node_setNode n _

theorem Work.node_openedNode_ne (w : Work) {n m : Nat} (h : m ≠ n) : (w.openedNode n).node m = w.node m :=
  w.popInflight.node_setNode_ne _ h

theorem Work.dueNodes_openedNode (hd : w.dueNodes = []) : (w.openedNode n).dueNodes = [] :=
  Work.dueNodes_setNode (w := w.popInflight) hd n (by simp [NodeEntry.wantsOpen])

theorem Work.dueNodes_closedNode (hd : w.dueNodes = []) :
    (w.closedNode n).dueNodes = if (w.node n).due = true then [n] else [] := by
  split
  · next h => exact Work.dueNodes_setNode_due (w := w.popInflight) hd n (by simp [NodeEntry.wantsOpen, h])
  · next h => exact Work.dueNodes_setNode (w := w.popInflight) hd n (by simp [NodeEntry.wantsOpen, h])

/-- The slots after a completed close: the node's own OPEN frame when it is due and a slot is free (R32, R53). -/
theorem Work.finish_closedNode (hw : w.rested) (ho : w.nodes.order = []) (hq : w.chain.waiting = [])
    (hd : w.dueNodes = []) (e : Env) :
    ∃ v : Work, (w.closedNode n).finish e = v ∧
      v = { w with
            nodes := { w.nodes with entries := v.nodes.entries }
            chain :=
              { w.chain with
                inflight := w.chain.inflight.tail
                queue :=
                  w.chain.queue ++ if (w.node n).due = true ∧ ¬ 64 ≤ w.chain.queue.length then [.opn n] else [] } } ∧
      v.node n =
        { w.node n with phase := .closed, due := if 64 ≤ w.chain.queue.length then (w.node n).due else false } ∧
      ∀ m, m ≠ n → v.node m = w.node m := by
  have hdue := Work.dueNodes_closedNode (n := n) hd
  by_cases h : (w.node n).due = true
  · rw [if_pos h] at hdue
    have hfin := Work.finish_one (w := w.closedNode n) ho hq hdue rfl e
    by_cases hfull : 64 ≤ w.chain.queue.length
    · rw [if_neg (show ¬ (w.closedNode n).chain.queue.length < 64 from Nat.not_lt.2 hfull)] at hfin
      obtain ⟨v, hv, hframe, hnodes⟩ := Work.unmark_of_frame (w := w) (v := w.closedNode n) hw rfl
      refine ⟨v, hfin.trans hv, ?_, ?_, fun m hm => (hnodes m).trans (w.node_closedNode_ne hm)⟩
      · rw [if_neg fun h => h.2 hfull, List.append_nil]; exact hframe
      · rw [hnodes, Work.node_closedNode, if_pos hfull]
    · rw [if_pos (show (w.closedNode n).chain.queue.length < 64 from Nat.not_le.1 hfull)] at hfin
      obtain ⟨v, hv, hframe, hnodes⟩ := Work.unmark_of_frame (w := w) (v := (w.closedNode n).openDue n) hw rfl
      refine ⟨v, hfin.trans hv, ?_, ?_, fun m hm => ?_⟩
      · rw [if_pos ⟨h, hfull⟩]; exact hframe
      · rw [hnodes, Work.node_openDue, Work.node_closedNode, if_neg hfull]
      · rw [hnodes, Work.node_openDue_ne _ hm, Work.node_closedNode_ne _ hm]
  · rw [if_neg h] at hdue
    obtain ⟨v, hv, hframe, hnodes⟩ := Work.unmark_of_frame (w := w) (v := w.closedNode n) hw rfl
    refine ⟨v, (Work.finish_of_calm (w := w.closedNode n) ho hq hdue (fun _ => rfl) e).trans hv, ?_, ?_,
      fun m hm => (hnodes m).trans (w.node_closedNode_ne hm)⟩
    · rw [if_neg fun h' => h h'.1, List.append_nil]; exact hframe
    · rw [hnodes, Work.node_closedNode]
      simp [h]

/-- A completed release whose target finds a free slot, or that has none (R46, R53). -/
theorem Work.finish_openedNode (hw : w.rested) (ho : w.nodes.order = []) (hq : w.chain.waiting = [])
    (hd : w.dueNodes = []) (hlt : w.chain.queue.length < 64) (e : Env) :
    ∃ v : Work, ((w.openedNode n).closeOntoTarget n).finish e = v ∧
      v = { w with
            nodes := { w.nodes with entries := v.nodes.entries }
            chain :=
              { w.chain with
                inflight := w.chain.inflight.tail
                queue := w.chain.queue ++ match (w.node n).target with | some b => [.close n b] | none => [] } } ∧
      v.node n = { w.node n with phase := .opened, bus := none } ∧ ∀ m, m ≠ n → v.node m = w.node m := by
  have hdue := Work.dueNodes_openedNode (n := n) hd
  have htarget : ((w.openedNode n).node n).target = (w.node n).target := congrArg (·.target) (w.node_openedNode n)
  rcases Option.eq_none_or_eq_some (w.node n).target with ht | ⟨b, ht⟩
  · have hclose : (w.openedNode n).closeOntoTarget n = w.openedNode n := by simp only [Work.closeOntoTarget, htarget, ht]
    obtain ⟨v, hv, hframe, hnodes⟩ := Work.unmark_of_frame (w := w) (v := w.openedNode n) hw rfl
    have hfin := Work.finish_of_calm (w := w.openedNode n) ho hq hdue (fun _ => rfl) e
    rw [hclose]
    refine ⟨v, hfin.trans hv, ?_, (hnodes n).trans (w.node_openedNode n),
      fun m hm => (hnodes m).trans (w.node_openedNode_ne hm)⟩
    simp only [ht, List.append_nil]
    exact hframe
  · have hclose : (w.openedNode n).closeOntoTarget n = (w.openedNode n).enqueue (.close n b) := by
      simp only [Work.closeOntoTarget, htarget, ht, Work.queueTarget]
      exact if_pos hlt
    obtain ⟨v, hv, hframe, hnodes⟩ := Work.unmark_of_frame (w := w) (v := (w.openedNode n).enqueue (.close n b)) hw rfl
    have hfin := Work.finish_of_calm (w := (w.openedNode n).enqueue (.close n b)) ho hq hdue (fun _ => rfl) e
    rw [hclose]
    refine ⟨v, hfin.trans hv, ?_, (hnodes n).trans (w.node_openedNode n),
      fun m hm => (hnodes m).trans (w.node_openedNode_ne hm)⟩
    simp only [ht]
    exact hframe

/-- With a full queue and no due node that is CLOSED, nothing is served (R45). -/
theorem Work.serveSlots_full (hfull : 64 ≤ w.chain.queue.length) (hd : w.dueNodes = []) : w.serveSlots = w := by
  have hmove : w.moveWaiting = w := by
    simp only [Work.moveWaiting, show Config.frameQueueCap - w.chain.queue.length = 0 from Nat.sub_eq_zero_of_le hfull,
      List.take_zero, List.map_nil, List.append_nil, List.drop_zero]
  simp [Work.serveSlots, hmove, Work.dueProcessing, hd]

/-- A completed release whose target finds the queue full joins the waiting targets (R46, R53). -/
theorem Work.finish_openedNode_full {b : Fin 20} (hw : w.rested) (ho : w.nodes.order = []) (hd : w.dueNodes = [])
    (ht : (w.node n).target = some b) (hfull : 64 ≤ w.chain.queue.length) (e : Env) :
    ∃ v : Work, ((w.openedNode n).closeOntoTarget n).finish e = v ∧
      v = { w with
            nodes := { w.nodes with entries := v.nodes.entries }
            chain :=
              { w.chain with inflight := w.chain.inflight.tail, waiting := w.chain.waiting ++ [(n, b)] } } ∧
      v.node n = { w.node n with phase := .opened, bus := none } ∧ ∀ m, m ≠ n → v.node m = w.node m := by
  have hdue := Work.dueNodes_openedNode (n := n) hd
  have htarget : ((w.openedNode n).node n).target = some b := (congrArg (·.target) (w.node_openedNode n)).trans ht
  simp only [Work.closeOntoTarget, htarget, Work.queueTarget]
  rw [if_neg (show ¬ (w.openedNode n).chain.queue.length < Config.frameQueueCap from Nat.not_lt.2 hfull),
    Work.finish_unclaimed (by exact ho) (by rfl), Work.serveSlots_full (by exact hfull) (by exact hdue)]
  obtain ⟨v, hv, hframe, hnodes⟩ := Work.unmark_of_frame (w := w)
    (v := { w.openedNode n with
            chain := { (w.openedNode n).chain with waiting := (w.openedNode n).chain.waiting ++ [(n, b)] } }) hw rfl
  exact ⟨v, hv, hframe, (hnodes n).trans (w.node_openedNode n), fun m hm => (hnodes m).trans (w.node_openedNode_ne hm)⟩

/-- A completed close at the lane of the claim: what the lane becomes, and nothing handed out (R53). -/
theorem Work.finish_closedNode_onLane {a : LaneId} {f : Lane → Lane} (hw : w.rested) (ho : w.nodes.order = [])
    (hq : w.chain.waiting = []) (hd : w.dueNodes = []) (hn : (w.node n).due = false) (e : Env) :
    ∃ v : Work, ((w.closedNode n).onLane a f).finish e = v ∧
      v = { w with lanes := v.lanes, nodes := { w.nodes with entries := v.nodes.entries }
                   chain := { w.chain with inflight := w.chain.inflight.tail } } ∧
      v.lane a = f (w.lane a) ∧ (∀ b, b ≠ a → v.lane b = w.lane b) ∧
      v.node n = { w.node n with phase := .closed } ∧ ∀ m, m ≠ n → v.node m = w.node m := by
  have hdue : ((w.closedNode n).onLane a f).dueNodes = [] := by
    have h := Work.dueNodes_closedNode (n := n) hd
    rwa [if_neg (by simp [hn])] at h
  obtain ⟨v, hv, hframe, hnodes, hlanes⟩ := Work.unmark_of_lanes (w := w) (v := (w.closedNode n).onLane a f) hw rfl
  refine ⟨v, (Work.finish_of_calm (w := (w.closedNode n).onLane a f) ho hq hdue (fun _ => rfl) e).trans hv, hframe, ?_,
    fun b hb => ?_, (hnodes n).trans (w.node_closedNode n), fun m hm => (hnodes m).trans (w.node_closedNode_ne hm)⟩
  · rw [hlanes, Work.lane_onLane]; rfl
  · rw [hlanes, Work.lane_onLane_ne _ _ hb]; rfl

/-- Whether a node of the claim counts as closed once a close has completed (R23). -/
theorem Work.countsClosed_closedNode {a : LaneId} (hp : (w.node n).phase = .closing) (hh : (w.node n).holder = .lane a)
    (m : Nat) (b : Fin 20) :
    (w.closedNode n).countsClosed a m b = true ↔
      ((w.node m).phase = .closed ∧ (w.node m).bus = some b ∧ (w.node m).target = none ∧ (w.node m).holder = .lane a) ∨
        (m = n ∧ (w.node n).bus = some b ∧ (w.node n).target = none) := by
  by_cases hm : m = n
  · subst hm
    simp [Work.countsClosed, Work.node_closedNode, hp, hh]
  · simp [Work.countsClosed, Work.node_closedNode_ne w hm, hm]

theorem Work.closeOntoTarget_marks (w : Work) (n : Nat) :
    (w.closeOntoTarget n).wake = w.wake ∧ (w.closeOntoTarget n).freed = w.freed := by
  unfold Work.closeOntoTarget Work.queueTarget
  split
  · split <;> exact ⟨rfl, rfl⟩
  · exact ⟨rfl, rfl⟩

theorem Work.closeOntoTarget_openedNode_marked (w : Work) (n : Nat) :
    ((w.openedNode n).closeOntoTarget n).Marked := fun _ => ((w.openedNode n).closeOntoTarget_marks n).1

theorem Work.checkSwitch_none {e : Env} {a : LaneId} (h : (w.lane a).cur = none) : w.checkSwitch e a = w := by
  simp [Work.checkSwitch, h]

theorem Work.checkSwitch_open {e : Env} {a : LaneId} {c : CurStep} (hc : (w.lane a).cur = some c)
    (h : c.phase = .switch → ∃ p ∈ c.nodes, ¬ w.countsClosed a p.1 p.2 = true) : w.checkSwitch e a = w := by
  simp only [Work.checkSwitch, hc]
  refine if_neg fun hsw => ?_
  obtain ⟨p, hp, hno⟩ := h hsw.1
  exact hno (List.all_eq_true.1 hsw.2 p hp)

theorem Work.checkSwitch_closed {e : Env} {a : LaneId} {c : CurStep} (hc : (w.lane a).cur = some c)
    (hp : c.phase = .switch) (h : ∀ p ∈ c.nodes, w.countsClosed a p.1 p.2 = true) :
    w.checkSwitch e a = w.endSwitch e a c := by
  simp only [Work.checkSwitch, hc]
  exact if_pos ⟨hp, List.all_eq_true.2 h⟩

end Completed

/-! ### OPEN_ALL's completion -/

theorem NodeEntry.released_wantsOpen {x : NodeEntry} (h : x.wantsOpen = false) : x.released.wantsOpen = false := by
  unfold NodeEntry.released; split
  · simp [NodeEntry.wantsOpen]
  · exact h

theorem NodeEntry.released_target (x : NodeEntry) : x.released.target = x.target := by
  unfold NodeEntry.released; split <;> rfl

theorem Work.foldl_closeOntoTarget_none {w : Work} {ns : List Nat} (h : ∀ n ∈ ns, (w.node n).target = none) :
    ns.foldl Work.closeOntoTarget w = w := by
  induction ns with
  | nil => rfl
  | cons n ns ih =>
    have hn : w.closeOntoTarget n = w := by simp [Work.closeOntoTarget, h n]
    rw [List.foldl_cons, hn]
    exact ih fun m hm => h m (List.mem_cons_of_mem n hm)

/-- The nodes that an OPEN_ALL's completion opens are those in OPENING. -/
theorem Work.opening_of_mem {w : Work} (hwf : entriesWf w.nodes.entries) {n : Nat}
    (h : n ∈ (w.nodes.entries.filter fun p => decide (p.2.phase = .opening)).map (·.1)) :
    (w.node n).phase = .opening := by
  obtain ⟨⟨m, x⟩, hp, rfl⟩ := List.mem_map.1 h
  obtain ⟨hmem, hphase⟩ := List.mem_filter.1 hp
  rw [show w.node m = x from entryAt_of_mem hwf hmem]
  simpa using hphase

/-- Settles O36: each completion's own effect on its node, and the end of its event with at most one frame to queue. -/
theorem completionsSettleNodes : Obligations.CompletionsSettleNodes := by
  intro s o t rest hrest ho hd hh hwf hi ht counts closesNow full
  have htail : s.work.chain.inflight.tail = rest := by rw [hi]; rfl
  refine ⟨fun n hn hq hp hopen => ?_, fun n b hn hp htgt hfull => ?_, fun hq => ⟨?_, fun n hn hp hlt => ?_, ?_⟩⟩
  · subst hn
    obtain ⟨v, hfin, hframe, hnodes⟩ := Work.finish_closedNode (n := n) hrest ho hq hd s.env
    have hswitch : ∀ a, (s.work.node n).holder = .lane a →
        (s.work.closedNode n).checkSwitch s.env a = s.work.closedNode n := by
      intro a ha
      cases hc : (s.work.lane a).cur with
      | none => exact Work.checkSwitch_none hc
      | some c =>
        refine Work.checkSwitch_open hc fun hphase => ?_
        obtain ⟨p, hpc, hcounts, hcloses⟩ := hopen a c ha hc hphase
        exact ⟨p, hpc, fun h => ((Work.countsClosed_closedNode hp ha p.1 p.2).1 h).elim hcounts hcloses⟩
    have hmatch : (s.work.closedNode n).checkHolder s.env (s.work.node n).holder = s.work.closedNode n := by
      cases hh : (s.work.node n).holder with
      | lane a => exact hswitch a hh
      | none => rfl
      | manual => rfl
    rw [exec_closeComplete hi ht hp, hmatch,
      Work.finishQuiet_unclaimed (fun _ => rfl) hfin (by rw [hframe]; exact hh)]
    rw [htail] at hframe
    exact ⟨v, rfl, hframe, hnodes⟩
  · subst hn
    obtain ⟨v, hfin, hframe, hnodes⟩ := Work.finish_openedNode_full hrest ho hd htgt hfull s.env
    rw [exec_releaseComplete hi ht hp, Work.finishQuiet_unclaimed (s.work.closeOntoTarget_openedNode_marked n) hfin (by rw [hframe]; exact hh)]
    rw [htail] at hframe
    exact ⟨v, rfl, hframe, hnodes⟩
  · intro n a c hn hp hholder hndue htgt hc hphase hall l closes up settled c0
    subst hn
    have hend : (s.work.closedNode n).checkHolder s.env (s.work.node n).holder =
        (s.work.closedNode n).endSwitch s.env a c := by
      rw [hholder]
      exact Work.checkSwitch_closed hc hphase fun p hpc =>
        (Work.countsClosed_closedNode hp hholder p.1 p.2).2 (hall p hpc)
    have closes_of : ∀ f : Lane → Lane,
        (s.work.closedNode n).endSwitch s.env a c = (s.work.closedNode n).onLane a f → closes (f l) := by
      intro f hf
      obtain ⟨v, hfin, hframe, hlanes⟩ := Work.finish_closedNode_onLane (a := a) (f := f) hrest ho hq hd hndue s.env
      refine ⟨v, ?_, ?_, hlanes⟩
      · rw [exec_closeComplete hi ht hp, hend, hf,
          Work.finishQuiet_unclaimed (fun _ => rfl) hfin (by rw [hframe]; exact hh)]
      · rw [← htail]; exact hframe
    refine ⟨fun hs hun => closes_of _ (Work.endSwitch_counts ?_), ?_⟩
    · by_cases hup : up = true
      · exact (if_pos hup).trans ((if_neg fun h => hun ⟨hup, h⟩).trans (if_neg hs))
      · exact (if_neg hup).trans (if_neg hs)
    · intro capped hcapped d ended
      have hstart : c.settleAtStart s.env a = some capped := by
        rcases hcapped with ⟨hup, hs, rfl⟩ | ⟨hup, hset, rfl⟩ | ⟨hup, hset, hs, rfl⟩
        · exact (if_neg (by simpa using hup)).trans (if_pos hs)
        · exact (if_pos hup).trans (if_pos hset)
        · exact (if_pos hup).trans ((if_neg hset).trans (if_pos hs))
      exact ⟨fun hr => closes_of _ (Work.endSwitch_waits hstart hr),
        fun hr hf hsd hm => closes_of _ (Work.endSwitch_sources hstart hr hf hsd hm)⟩
  · subst hn
    obtain ⟨v, hfin, hframe, hnodes⟩ := Work.finish_openedNode (n := n) hrest ho hq hd hlt s.env
    rw [exec_releaseComplete hi ht hp, Work.finishQuiet_unclaimed (s.work.closeOntoTarget_openedNode_marked n) hfin (by rw [hframe]; exact hh)]
    rw [htail] at hframe
    exact ⟨v, rfl, hframe, hnodes⟩
  · rintro rfl htgt
    have hnone : ∀ n ∈ (s.work.nodes.entries.filter fun p => decide (p.2.phase = .opening)).map (·.1),
        ((s.work.popInflight.onNodes NodeEntry.released).node n).target = none := fun n hn => by
      rw [Work.node_onNodes (w := s.work.popInflight) hwf rfl, NodeEntry.released_target]
      exact htgt n (Work.opening_of_mem hwf hn)
    have hdue : (s.work.popInflight.onNodes NodeEntry.released).dueNodes = [] :=
      Work.dueNodes_onNodes fun p hp => NodeEntry.released_wantsOpen (s.work.dueNodes_eq_nil_iff.1 hd p hp)
    obtain ⟨v, hv, hframe, hnodes⟩ :=
      Work.unmark_of_frame (w := s.work) (v := s.work.popInflight.onNodes NodeEntry.released) hrest rfl
    rw [exec_openAllComplete hi ht, Work.foldl_closeOntoTarget_none hnone,
      Work.finishQuiet_unclaimed (fun _ => rfl)
        ((Work.finish_of_calm (w := s.work.popInflight.onNodes NodeEntry.released) ho hq hdue (fun _ => rfl) s.env).trans hv)
        (by rw [hframe]; exact hh)]
    refine ⟨v, rfl, ?_, fun n => ?_⟩
    · rw [← htail]; exact hframe
    · rw [hnodes, Work.node_onNodes (w := s.work.popInflight) hwf rfl]
      rfl

end Sys2Proof.Machine
end

section
/-! PROOFS, family 02_the_node_map.md: GO, PAUSE and CANCEL_LANE at the lanes. -/

namespace Sys2Proof.Machine

theorem Work.node_congr {v w : Work} (h : v.nodes = w.nodes) (n : Nat) : v.node n = w.node n :=
  congrArg (fun x : NodeMap => entryAt x.entries n) h

/-! ### A request on several lanes -/

/-- An operation that acts on each named lane alone acts on all of them at the one event. -/
theorem Work.foldl_onLane {op : Work → LaneId → Work} {g : LaneId → Lane → Lane} {w : Work} {ns : List LaneId}
    (hop : ∀ (v : Work), ∀ n ∈ ns, v.nodes = w.nodes → v.lane n = w.lane n → op v n = v.onLane n (g n)) (hd : ns.Nodup) :
    ∃ v : Work, ns.foldl op w = v ∧ v = { w with lanes := v.lanes } ∧
      ∀ n, v.lane n = if n ∈ ns then g n (w.lane n) else w.lane n := by
  have hfold : ∀ (ms : List LaneId) (u : Work), ms.Nodup → (∀ m ∈ ms, m ∈ ns) → u = { w with lanes := u.lanes } →
      (∀ n ∈ ms, u.lane n = w.lane n) → ∃ v : Work, ms.foldl op u = v ∧ v = { w with lanes := v.lanes } ∧
        ∀ n, v.lane n = if n ∈ ms then g n (w.lane n) else u.lane n := by
    intro ms
    induction ms with
    | nil => exact fun u _ _ hu _ => ⟨u, rfl, hu, fun n => (if_neg (by simp)).symm⟩
    | cons m ms ih =>
      intro u hd hms hu hlane
      rw [List.nodup_cons] at hd
      have hstep : op u m = u.onLane m (g m) := hop u m (hms m (by simp)) (by rw [hu]) (hlane m (by simp))
      have hkeep : ∀ n, n ≠ m → (u.onLane m (g m)).lane n = u.lane n := fun n hn => Work.lane_onLane_ne u (g m) hn
      obtain ⟨v, hfold, hv, hlanes⟩ := ih (u.onLane m (g m)) hd.2 (fun k hk => hms k (by simp [hk])) (by rw [hu]; rfl)
        fun n hn => by rw [hkeep n fun h => hd.1 (h ▸ hn)]; exact hlane n (by simp [hn])
      refine ⟨v, by rw [List.foldl_cons, hstep, hfold], hv, fun n => ?_⟩
      rw [hlanes]
      by_cases hn : n = m
      · subst hn; simp [hd.1, hlane]
      · simp [hn, hkeep n hn]
  exact hfold ns w hd (fun _ h => h) rfl fun _ _ => rfl

theorem nodup_allLanes : allLanes.Nodup := by decide

theorem mem_maskLanes {mask : Byte} {n : LaneId} :
    n ∈ (allLanes.filter fun n => mask.getLsbD n.val) ↔ mask.getLsbD n.val = true := by
  have hall : n ∈ allLanes := by revert n; decide
  simp [List.mem_filter, hall]

theorem maskOf_none {mask : Byte} (h : mask.toNat = 0 ∨ 16 ≤ mask.toNat) : maskOf mask = none := if_pos h

theorem maskOf_some {mask : Byte} (h1 : 1 ≤ mask.toNat) (h16 : mask.toNat < 16) :
    maskOf mask = some (allLanes.filter fun n => mask.getLsbD n.val) := if_neg (by omega)

/-! ### GO -/

/-- GO at a lane with no step to resume and no freeze (R86, R91). -/
def Lane.started (l : Lane) : Lane :=
  if l.run = .stopped ∨ l.run = .paused ∨ l.run = .halted ∨ l.run = .held then { l with run := .running }
  else if l.run = .following ∧ (l.remembered = some .paused ∨ l.remembered = some .stopped) then
    { l with remembered := some .running }
  else l

/-- The lane has no step that GO would resume, and no freeze that GO would let take effect. -/
def Lane.startsAlone (l : Lane) : Prop :=
  l.run = .running ∨ l.run = .pausing ∨ l.run = .following ∨ (l.cur = none ∧ l.frozen = false)

theorem Work.tryFollow_unfrozen {w : Work} (e : Env) {n : LaneId} (h : (w.lane n).frozen = false) :
    w.tryFollow e n = w := by
  unfold Work.tryFollow
  split
  · simp [h]
  · rfl

theorem Work.goLane_onLane {w : Work} (e : Env) {n : LaneId} (h : (w.lane n).startsAlone) :
    w.goLane e n = w.onLane n Lane.started := by
  have hstart : (w.lane n).cur = none → (w.lane n).frozen = false →
      (match (w.lane n).cur with
        | some c => (w.setLane n { w.lane n with run := .running }).resumeStep e n c
        | none => (w.setLane n { w.lane n with run := .running }).tryFollow e n) =
      w.setLane n { w.lane n with run := .running } := by
    intro hc hf
    rw [hc]
    exact Work.tryFollow_unfrozen e (by simpa using hf)
  simp only [Work.goLane, Work.onLane]
  cases hr : (w.lane n).run
  case running | pausing => simp [Lane.started, hr]
  case following =>
    by_cases hm : (w.lane n).remembered = some .paused ∨ (w.lane n).remembered = some .stopped
    · simp [Lane.started, hr, hm]
    · simp [Lane.started, hr, hm]
  all_goals
    obtain ⟨hc, hf⟩ : (w.lane n).cur = none ∧ (w.lane n).frozen = false := by simpa [Lane.startsAlone, hr] using h
    simp only [Lane.started, hr, reduceCtorEq, or_true, true_or, if_true]
    exact hstart hc hf

section Refusal

variable {e : Env} {w : Work} {ns : List LaneId}

theorem goRefusal_unseated (h : e.isSeated = false) : goRefusal e w ns = some .unseated := if_pos h

theorem goRefusal_chainFault (hs : e.isSeated = true) (h : w.chain.state ≠ .ready) :
    goRefusal e w ns = some .chainFault := by
  simp [goRefusal, hs, h]

theorem goRefusal_lineManual (hs : e.isSeated = true) (hr : w.chain.state = .ready)
    (h : ∃ n ∈ ns, (e.cfg n).lineMode = .manual) : goRefusal e w ns = some .lineManual := by
  have hany : (ns.any fun n => decide ((e.cfg n).lineMode = .manual)) = true := by simpa using h
  rw [goRefusal, if_neg (by simp [hs]), if_neg (not_not_intro hr), if_pos hany]

theorem goRefusal_disabled (hs : e.isSeated = true) (hr : w.chain.state = .ready)
    (ha : ∀ n ∈ ns, (e.cfg n).lineMode = .auto) (h : ∃ n ∈ ns, (e.cfg n).enabled = false) :
    goRefusal e w ns = some .disabled := by
  have hmanual : (ns.any fun n => decide ((e.cfg n).lineMode = .manual)) = false := by
    rw [List.any_eq_false]
    intro n hn
    simp [ha n hn]
  have hany : (ns.any fun n => !(e.cfg n).enabled) = true := by simpa using h
  rw [goRefusal, if_neg (by simp [hs]), if_neg (not_not_intro hr), if_neg (by simp [hmanual]), if_pos hany]

theorem goRefusal_none (hs : e.isSeated = true) (hr : w.chain.state = .ready)
    (h : ∀ n ∈ ns, (e.cfg n).lineMode = .auto ∧ (e.cfg n).enabled = true) : goRefusal e w ns = none := by
  have hmanual : (ns.any fun n => decide ((e.cfg n).lineMode = .manual)) = false := by
    rw [List.any_eq_false]
    intro n hn
    simp [(h n hn).1]
  have hdisabled : (ns.any fun n => !(e.cfg n).enabled) = false := by
    rw [List.any_eq_false]
    intro n hn
    simp [(h n hn).2]
  rw [goRefusal, if_neg (by simp [hs]), if_neg (not_not_intro hr), if_neg (by simp [hmanual]), if_neg (by simp [hdisabled])]

end Refusal

section Go

variable {s : State}

/-- GO on the named lanes is refused with a code (R86). -/
def GoRefused (s : State) (named : LaneId → Prop) (code : ReplyCode) : Prop :=
  (s.inputs.seated.level = false ∧ code = .unseated) ∨
    (s.inputs.seated.level = true ∧ s.work.chain.state ≠ .ready ∧ code = .chainFault) ∨
    (s.inputs.seated.level = true ∧ s.work.chain.state = .ready ∧
      (∃ n, named n ∧ (s.fix.lanes[n.val]).lineMode = .manual) ∧ code = .lineManual) ∨
    (s.inputs.seated.level = true ∧ s.work.chain.state = .ready ∧
      (∀ n, named n → (s.fix.lanes[n.val]).lineMode = .auto) ∧
      (∃ n, named n ∧ (s.fix.lanes[n.val]).enabled = false) ∧ code = .disabled)

theorem goRefusal_of_refused {w : Work} {named : LaneId → Prop} {ns : List LaneId} {code : ReplyCode}
    (hw : w.chain.state = s.work.chain.state) (hns : ∀ n, n ∈ ns ↔ named n) (h : GoRefused s named code) :
    goRefusal s.env w ns = some code := by
  rcases h with ⟨hs, rfl⟩ | ⟨hs, hr, rfl⟩ | ⟨hs, hr, ⟨n, hn, hm⟩, rfl⟩ | ⟨hs, hr, ha, ⟨n, hn, hd⟩, rfl⟩
  · exact goRefusal_unseated hs
  · exact goRefusal_chainFault hs (hw ▸ hr)
  · exact goRefusal_lineManual hs (hw ▸ hr) ⟨n, (hns n).2 hn, hm⟩
  · exact goRefusal_disabled hs (hw ▸ hr) (fun n hn => ha n ((hns n).1 hn)) ⟨n, (hns n).2 hn, hd⟩

theorem exec_go_format {mask : Byte} (h : mask.toNat = 0 ∨ 16 ≤ mask.toNat) :
    exec (.go mask) s = .next { s with work := s.work.reply 0x03 .format [] } := by
  change execGo mask s = _
  simp [execGo, maskOf_none h]

theorem exec_go_refused {mask : Byte} {ns : List LaneId} {code : ReplyCode} (hm : maskOf mask = some ns)
    (h : goRefusal s.env s.work ns = some code) :
    exec (.go mask) s = .next { s with work := s.work.reply 0x03 code [] } := by
  change execGo mask s = _
  simp [execGo, hm, h]

theorem exec_go_accepted {mask : Byte} {ns : List LaneId} (hm : maskOf mask = some ns)
    (h : goRefusal s.env s.work ns = none) :
    exec (.go mask) s =
      .next { s with work := ((ns.foldl (fun w n => w.goLane s.env n) s.work).finish s.env).reply 0x03 .ok [] } := by
  change execGo mask s = _
  simp [execGo, hm, h]

theorem Work.send_room {w : Work} {n : LaneId} (m : UnitMessage) (h : (w.lane n).tx.length < 32) :
    w.send n m = w.onLane n fun l => { l with tx := l.tx ++ [m] } := if_pos h

theorem exec_unitGo_refused {n : LaneId} {code : ReplyCode} (h : goRefusal s.env (s.work.hunt n) [n] = some code) :
    exec (.unitGo n) s = .next { s with work := (s.work.hunt n).send n (.refuse 0 code.byte) } := by
  change execUnitGo n s = _
  simp [execUnitGo, h]

theorem exec_unitGo_accepted {n : LaneId} (h : goRefusal s.env (s.work.hunt n) [n] = none) :
    exec (.unitGo n) s =
      .next { s with work := (((s.work.hunt n).send n (.accept 0)).goLane s.env n).finish s.env } := by
  change execUnitGo n s = _
  simp [execUnitGo, h]

end Go

/-- A step kept in CLAIM resumes at the end of the claim order list (R26, R87). -/
theorem Work.goLane_claim {w : Work} (e : Env) {n : LaneId} {c : CurStep}
    (hr : (w.lane n).run = .paused ∨ (w.lane n).run = .held) (hc : (w.lane n).cur = some c)
    (hres : c.resume = some .claim) :
    w.goLane e n =
      (w.setLane n { w.lane n with run := .running, cur := some { c with phase := .claim, resume := none } }).joinClaim n := by
  rcases hr with hr | hr <;>
    simp [Work.goLane, hr, hc, Work.resumeStep, hres, Work.enterClaim, Work.setCur, Work.onLane]

/-- A step kept in TOKEN_WAIT whose token is still unposted resumes there with C3 started (R87). -/
theorem Work.goLane_tokenWait {w : Work} (e : Env) {n : LaneId} {c : CurStep} {k : Fin 32}
    (hr : (w.lane n).run = .paused ∨ (w.lane n).run = .held) (hc : (w.lane n).cur = some c)
    (hres : c.resume = some .tokenWait) (hk : c.step.waitToken = some k) (ht : c.token = none)
    (hpost : w.tokens[k.val] = none) :
    w.goLane e n =
      w.setLane n
        { w.lane n with
          run := .running, cur := some { c with phase := .tokenWait, resume := none }
          c3 := Channel.startDown e.clock c.step.flags.coarse c.step.watch } := by
  rcases hr with hr | hr <;>
    simp [Work.goLane, hr, hc, Work.resumeStep, hres, Work.enterWaits, hk, ht, Work.enterTokenWait, hpost,
      Work.setCur, Work.startWatch, Work.onLane]

/-- Settles O43: GO acts on each named lane alone; a kept step resumes at its resume point. -/
theorem goStartsLanes : Obligations.GoStartsLanes := by
  refine ⟨?_, ?_⟩
  · intro s hrest halone go refusal accepted
    have hgo : go = Lane.started := rfl
    refine ⟨?_, ?_⟩
    · intro mask named
      refine ⟨exec_go_format, fun h1 h16 => ⟨fun code href => ?_, fun hacc => ?_⟩⟩
      · exact exec_go_refused (maskOf_some h1 h16) (goRefusal_of_refused rfl (fun n => mem_maskLanes) href)
      · obtain ⟨hs, hready, hall⟩ := hacc
        obtain ⟨v, hfold, hv, hlanes⟩ := Work.foldl_onLane (w := s.work) (op := fun w n => w.goLane s.env n)
          (g := fun _ => Lane.started) (fun v n _ _ hl => Work.goLane_onLane s.env (by rw [hl]; exact halone n))
          (nodup_allLanes.filter fun n => mask.getLsbD n.val)
        have hwake : v.wake = false := by rw [hv]; exact hrest.1
        rw [exec_go_accepted (maskOf_some h1 h16)
          (goRefusal_none hs hready fun n hn => hall n (mem_maskLanes.1 hn)), hfold, Work.finish_rested hwake]
        refine ⟨v, rfl, hv, fun n => ?_⟩
        rw [hlanes, hgo]
        simp only [mem_maskLanes]
    · intro n htx l
      have hroom : ((s.work.hunt n).lane n).tx.length < 32 := by simpa [Work.hunt] using htx
      refine ⟨fun code href => ?_, fun hacc => ?_⟩
      · rw [exec_unitGo_refused (goRefusal_of_refused rfl (fun n => List.mem_singleton) href), Work.send_room _ hroom]
        simp [Work.hunt, Work.onLane, l]
      · obtain ⟨hs, hready, hall⟩ := hacc
        have hlane : ((s.work.hunt n).send n (.accept 0)).lane n = { l with rx := .hunting, tx := l.tx ++ [.accept 0] } := by
          rw [Work.send_room _ hroom]
          simp [Work.hunt, l]
        have hwake : (((s.work.hunt n).send n (.accept 0)).onLane n Lane.started).wake = false := by
          rw [Work.send_room _ hroom]
          exact hrest.1
        rw [exec_unitGo_accepted (goRefusal_none hs hready fun m hm => hall m (List.mem_singleton.1 hm)),
          Work.goLane_onLane s.env (by rw [hlane]; exact halone n), Work.finish_rested hwake, Work.send_room _ hroom]
        simp [Work.hunt, Work.onLane, l, hgo]
  · intro w e n c l t hr hc
    refine ⟨fun hres => ?_, fun k hres hk ht hpost => Work.goLane_tokenWait e hr hc hres hk ht hpost⟩
    have ht := Work.goLane_claim e hr hc hres
    refine ⟨?_, ?_, ?_, fun m hm => ?_⟩
    · rw [show t = _ from ht]; simp [l]
    · rw [show t = _ from ht]; rfl
    · rw [show t = _ from ht]; rfl
    · rw [show t = _ from ht, Work.joinClaim_lane, Work.lane_setLane_ne _ _ hm]

/-! ### PAUSE -/

/-- PAUSE at a lane whose step, if it has one, stands in TOKEN_WAIT or later (R88, R91). -/
def Lane.pausedBy (l : Lane) : Lane :=
  match l.run, l.cur with
  | .running, none => { l with run := .paused }
  | .running, some c =>
    if c.phase = .tokenWait then
      { l with
        run := .paused, cur := some { c with phase := .none, resume := some .tokenWait }
        c0 := l.c0.stop, c1 := l.c1.stop, c2 := l.c2.stop, c3 := l.c3.stop }
    else { l with run := .pausing }
  | .following, _ => if l.remembered = some .running then { l with remembered := some .paused } else l
  | _, _ => l

/-- A step at the head with its resume point and stopped channels (R87). -/
def Lane.kept (l : Lane) (c : CurStep) (p : ResumePoint) : Lane :=
  { l with
    cur := some { c with phase := .none, resume := some p }
    c0 := l.c0.stop, c1 := l.c1.stop, c2 := l.c2.stop, c3 := l.c3.stop }

/-- No node carries a waiter mark and no lane stands in the claim order list. -/
def NodeMap.unclaimed (m : NodeMap) : Prop := m.order = [] ∧ ∀ p ∈ m.entries, p.2.waiter = none

theorem Work.unclaimed_of_node {w : Work} (hwf : entriesWf w.nodes.entries) (ho : w.nodes.order = [])
    (h : ∀ m a, (w.node m).waiter ≠ some a) : w.nodes.unclaimed := by
  refine ⟨ho, fun p hp => ?_⟩
  have hnode : w.node p.1 = p.2 := entryAt_of_mem hwf hp
  exact hnode ▸ Option.eq_none_iff_forall_ne_some.2 (h p.1)

theorem Work.leaveClaim_unclaimed {w : Work} (h : w.nodes.unclaimed) (a : LaneId) : w.leaveClaim a = w := by
  obtain ⟨ho, hmarks⟩ := h
  have hnone : (w.nodes.entries.any fun p => decide (p.2.waiter = some a)) = false := by
    rw [List.any_eq_false]
    intro p hp
    simp [hmarks p hp]
  have horder : ({ w with nodes := { w.nodes with order := w.nodes.order.filter (· != a) } } : Work) = w := by
    rw [ho, List.filter_nil, ← ho]
  rw [Work.leaveClaim, horder, Work.clearMarks, if_neg (by simp [hnone])]

theorem Work.keepStep_eq (w : Work) (n : LaneId) (c : CurStep) (p : ResumePoint) :
    w.keepStep n c p = (w.onLane n fun l => l.kept c p).leaveClaim n := by
  simp only [Work.keepStep, Work.stopAll, Work.setCur, Work.onLane_onLane]
  rfl

section PauseStep

variable {w : Work} {n : LaneId} {c : CurStep}

theorem Work.pauseLane_tokenWait (hr : (w.lane n).run = .running) (hc : (w.lane n).cur = some c)
    (hp : c.phase = .tokenWait) :
    w.pauseLane n = (w.keepStep n c .tokenWait).onLane n fun l => { l with run := .paused } := by
  simp only [Work.pauseLane, hr, hc, hp]

theorem Work.pauseLane_claim (hr : (w.lane n).run = .running) (hc : (w.lane n).cur = some c)
    (hp : c.phase = .claim) :
    w.pauseLane n = (w.keepStep n c .claim).onLane n fun l => { l with run := .paused } := by
  simp only [Work.pauseLane, hr, hc, hp]

theorem Work.pauseLane_fuseWait (hr : (w.lane n).run = .running) (hc : (w.lane n).cur = some c)
    (hp : c.phase = .fuseWait) :
    w.pauseLane n =
      ((w.keepStep n c .fuseWait).unfreeze n c.step).onLane n fun l => { l with run := .paused } := by
  simp only [Work.pauseLane, hr, hc, hp]

end PauseStep

theorem Work.pauseLane_onLane {w : Work} {n : LaneId} (hu : w.nodes.unclaimed)
    (hph : ∀ c, (w.lane n).cur = some c →
      c.phase ≠ .fuseWait ∧ c.phase ≠ .claim ∧ c.phase ≠ .none ∧ c.phase ≠ .admission) :
    w.pauseLane n = w.onLane n Lane.pausedBy := by
  by_cases htok : (w.lane n).run = .running ∧ ∃ c, (w.lane n).cur = some c ∧ c.phase = .tokenWait
  · obtain ⟨hr, c, hc, ht⟩ := htok
    rw [Work.pauseLane_tokenWait hr hc ht, Work.keepStep_eq, Work.leaveClaim_unclaimed (by exact hu)]
    simp [Work.onLane, Lane.pausedBy, Lane.kept, hr, hc, ht]
  · simp only [Work.pauseLane]
    cases hr : (w.lane n).run
    case running =>
      cases hc : (w.lane n).cur with
      | none => simp [Work.onLane, Lane.pausedBy, hr, hc]
      | some c =>
        have ht : c.phase ≠ .tokenWait := fun ht => htok ⟨hr, c, hc, ht⟩
        obtain ⟨hfuse, hclaim, hnone, hadm⟩ := hph c hc
        cases hp : c.phase <;> simp_all [Work.onLane, Lane.pausedBy]
    case following =>
      by_cases hm : (w.lane n).remembered = some .running <;> simp [Work.onLane, Lane.pausedBy, hr, hm]
    all_goals simp [Work.onLane, Lane.pausedBy, hr]

theorem exec_pause_format {s : State} {mask : Byte} (h : mask.toNat = 0 ∨ 16 ≤ mask.toNat) :
    exec (.pause mask) s = .next { s with work := s.work.reply 0x04 .format [] } := by
  change execPause mask s = _
  simp [execPause, maskOf_none h]

theorem exec_pause_lanes {s : State} {mask : Byte} {ns : List LaneId} (hm : maskOf mask = some ns) :
    exec (.pause mask) s =
      .next { s with work := ((ns.foldl (fun w n => w.pauseLane n) s.work).finish s.env).reply 0x04 .ok [] } := by
  change execPause mask s = _
  simp [execPause, hm]

theorem exec_unitPause {s : State} {n : LaneId} :
    exec (.unitPause n) s = .next { s with work := ((s.work.hunt n).pauseLane n).finish s.env } := rfl

/-! ### Leaving a claim -/

theorem Work.leaveClaim_lane (w : Work) (a i : LaneId) : (w.leaveClaim a).lane i = w.lane i := Work.clearMarks_lane _ a i

theorem Work.leaveClaim_results (w : Work) (a : LaneId) : (w.leaveClaim a).results = w.results := by
  unfold Work.leaveClaim Work.clearMarks; dsimp only; split <;> rfl

theorem Work.leaveClaim_order (w : Work) (a : LaneId) : a ∉ (w.leaveClaim a).nodes.order := by
  have horder : (w.leaveClaim a).nodes.order = w.nodes.order.filter (· != a) := by
    unfold Work.leaveClaim Work.clearMarks; dsimp only; split <;> rfl
  simp [horder]

theorem Work.waiter_of_entries {w : Work} {a : LaneId} (h : ∀ p ∈ w.nodes.entries, p.2.waiter ≠ some a) (m : Nat) :
    (w.node m).waiter ≠ some a := by
  by_cases hm : w.node m = .reset
  · rw [hm]; simp [NodeEntry.reset]
  · exact h _ (mem_of_entryAt hm)

theorem Work.leaveClaim_waiter (w : Work) (a : LaneId) (m : Nat) : ((w.leaveClaim a).node m).waiter ≠ some a := by
  refine Work.waiter_of_entries (fun p hp => ?_) m
  unfold Work.leaveClaim Work.clearMarks at hp
  dsimp only at hp
  split at hp
  · obtain ⟨q, _, rfl⟩ := List.mem_map.1 (List.mem_filter.1 hp).1
    by_cases hq : q.2.waiter = some a <;> simp [hq]
  · next hany =>
    intro hw
    exact hany (List.any_eq_true.2 ⟨p, hp, decide_eq_true hw⟩)

theorem fusedFollower_pair {n f : LaneId} (h : (n = 0 ∧ f = 1) ∨ (n = 2 ∧ f = 3)) (r : StepRecord) :
    fusedFollower n r = if r.flags.fused = true then some f else none := by
  rcases h with ⟨rfl, rfl⟩ | ⟨rfl, rfl⟩ <;> simp [fusedFollower, followerOf]

theorem Work.unfreeze_lane (w : Work) {n f : LaneId} (h : (n = 0 ∧ f = 1) ∨ (n = 2 ∧ f = 3)) (r : StepRecord) :
    (w.unfreeze n r).lane f = if r.flags.fused = true then { w.lane f with frozen := false } else w.lane f := by
  rw [Work.unfreeze, fusedFollower_pair h]
  split <;> simp_all

/-- A follower's freeze is no part of its leader's lane. -/
theorem Work.unfreeze_lane_self (w : Work) (n : LaneId) (r : StepRecord) : (w.unfreeze n r).lane n = w.lane n := by
  have hne : n ≠ followerOf n := by revert n; decide
  unfold Work.unfreeze fusedFollower
  split
  · next f hf =>
    split at hf
    · rw [← Option.some.inj hf, Work.lane_onLane_ne _ _ hne]
    · simp at hf
  · rfl

theorem Work.unfreeze_nodes (w : Work) (n : LaneId) (r : StepRecord) : (w.unfreeze n r).nodes = w.nodes := by
  unfold Work.unfreeze; split <;> rfl

/-- Settles O44: PAUSE acts on each named lane alone; a step in CLAIM or FUSE_WAIT is kept and leaves the claim. -/
theorem pauseStopsLanes : Obligations.PauseStopsLanes := by
  refine ⟨?_, ?_⟩
  · intro s hrest hmarks ho hwf hph pause
    have hpause : pause = Lane.pausedBy := rfl
    have hu := Work.unclaimed_of_node hwf ho hmarks
    refine ⟨fun mask => ⟨exec_pause_format, fun h1 h16 => ?_⟩, fun n => ?_⟩
    · obtain ⟨v, hfold, hv, hlanes⟩ := Work.foldl_onLane (w := s.work) (op := fun w n => w.pauseLane n)
        (g := fun _ => Lane.pausedBy)
        (fun v n _ hn hl => Work.pauseLane_onLane (by rw [hn]; exact hu) (by rw [hl]; exact hph n))
        (nodup_allLanes.filter fun n => mask.getLsbD n.val)
      have hwake : v.wake = false := by rw [hv]; exact hrest.1
      rw [exec_pause_lanes (maskOf_some h1 h16), hfold, Work.finish_rested hwake]
      refine ⟨v, rfl, hv, fun n => ?_⟩
      rw [hlanes, hpause]
      simp only [mem_maskLanes]
    · have hlane : (s.work.hunt n).pauseLane n = (s.work.hunt n).onLane n Lane.pausedBy :=
        Work.pauseLane_onLane hu (by simpa [Work.hunt] using hph n)
      rw [exec_unitPause, hlane, Work.finish_rested (by exact hrest.1), hpause]
      simp [Work.hunt, Work.onLane]
  · intro w n c p l t hr hc hp
    have hkeep : ((w.keepStep n c p).lane n) = l.kept c p := by
      rw [Work.keepStep_eq, Work.leaveClaim_lane, Work.lane_onLane]
    have horder : n ∉ (w.keepStep n c p).nodes.order := by rw [Work.keepStep_eq]; exact Work.leaveClaim_order _ n
    have hmarks : ∀ m, ((w.keepStep n c p).node m).waiter ≠ some n := by
      rw [Work.keepStep_eq]; exact Work.leaveClaim_waiter _ n
    have hfar : ∀ f, f ≠ n → (w.keepStep n c p).lane f = w.lane f := fun f hf => by
      rw [Work.keepStep_eq, Work.leaveClaim_lane, Work.lane_onLane_ne _ _ hf]
    have hpair : ∀ f : LaneId, (n = 0 ∧ f = 1) ∨ (n = 2 ∧ f = 3) → f ≠ n := by
      rintro f (⟨rfl, rfl⟩ | ⟨rfl, rfl⟩) <;> decide
    rcases hp with ⟨hphase, rfl⟩ | ⟨hphase, rfl⟩
    · have ht : t = _ := Work.pauseLane_claim hr hc hphase
      rw [ht]
      refine ⟨?_, horder, hmarks, fun f hf => ?_⟩
      · rw [Work.lane_onLane, hkeep]; rfl
      · rw [Work.lane_onLane_ne _ _ (hpair f hf), hfar f (hpair f hf), if_neg (by simp [hphase])]
    · have ht : t = _ := Work.pauseLane_fuseWait hr hc hphase
      rw [ht]
      refine ⟨?_, ?_, fun m => ?_, fun f hf => ?_⟩
      · rw [Work.lane_onLane, Work.unfreeze_lane_self, hkeep]; rfl
      · rw [Work.onLane_nodes, Work.unfreeze_nodes]; exact horder
      · rw [Work.onLane_node, Work.node_congr (Work.unfreeze_nodes _ n c.step)]
        exact hmarks m
      · rw [Work.lane_onLane_ne _ _ (hpair f hf), Work.unfreeze_lane _ hf, hfar f (hpair f hf)]
        simp [hphase]

end Sys2Proof.Machine
end

section
/-! PROOFS, family 02_the_node_map.md: the end of a step at its lane: lines, channels, release and delivery, and
CANCEL_LANE. -/

namespace Sys2Proof.Machine

/-! ### Causes -/

theorem Work.noteRemoval_notices (w : Work) (e : Env) (n : LaneId) (before after : Nat) :
    ∃ k, w.noteRemoval e n before after = { w with notices := k } := by
  unfold Work.noteRemoval; dsimp only; split
  · exact ⟨_, rfl⟩
  · exact ⟨w.notices, rfl⟩

theorem Work.raiseVerdict_notices (w : Work) (cfg : LaneConfig) (n : LaneId) (v : Verdict) :
    ∃ k, w.raiseVerdict cfg n v = { w with notices := k } := by
  unfold Work.raiseVerdict; dsimp only; split <;> split <;> first | exact ⟨w.notices, rfl⟩ | exact ⟨_, rfl⟩

theorem Work.enterResult_notices (w : Work) (n : LaneId) (r : ResultRecord) :
    ∃ k, w.enterResult n r = { w with results := w.results ++ [r], lastDelivering := n, notices := k } := by
  unfold Work.enterResult; dsimp only; split <;> split <;> exact ⟨_, rfl⟩

/-! ### Lines, messages and channels of one lane -/

theorem Work.drive_eq (w : Work) (e : Env) (n : LaneId) (src gate : Bool) :
    w.drive e n src gate = w.onLane n fun l => if (e.cfg n).lineMode = .auto then { l with src, gate } else l := by
  unfold Work.drive; split
  · rfl
  · simp only [Work.onLane, Work.setLane_lane]

/-- Every channel of the lane stopped (R120). -/
def Lane.stopped (l : Lane) : Lane := { l with c0 := l.c0.stop, c1 := l.c1.stop, c2 := l.c2.stop, c3 := l.c3.stop }

theorem Work.stopAll_eq (w : Work) (n : LaneId) : w.stopAll n = w.onLane n Lane.stopped := rfl

theorem fusedFollower_single {n : LaneId} {r : StepRecord} (h : r.flags.fused = false) : fusedFollower n r = none := by
  simp [fusedFollower, h]

theorem Work.stopStep_single (w : Work) {n : LaneId} {r : StepRecord} (h : r.flags.fused = false) :
    w.stopStep n r = w.onLane n Lane.stopped := by
  simp only [Work.stopStep, fusedFollower_single h, Work.stopAll_eq]

theorem Work.endPair_single (w : Work) {n : LaneId} {r : StepRecord} (h : r.flags.fused = false) :
    w.endPair n r = w := by
  simp only [Work.endPair, fusedFollower_single h]

/-! ### Delivery -/

/-- The lane of a step that is delivered (R106, R107). -/
def Lane.delivered (l : Lane) (halts : Bool) : Lane := ({ l with cur := none } : Lane).afterDelivery halts

theorem followerOf_ne (n : LaneId) : n ≠ followerOf n := by revert n; decide

theorem Work.endPair_lane_self (w : Work) (n : LaneId) (r : StepRecord) : (w.endPair n r).lane n = w.lane n := by
  unfold Work.endPair fusedFollower
  split
  · next f hf =>
    split at hf
    · rw [← Option.some.inj hf, Work.lane_onLane_ne _ _ (followerOf_ne n)]
    · simp at hf
  · rfl

theorem Work.endPair_fields (w : Work) (n : LaneId) (r : StepRecord) (rs : List ResultRecord) (a : LaneId)
    (k : Vector (BitVec 5) 6) :
    ({ w with results := rs, lastDelivering := a, notices := k } : Work).endPair n r =
      { w.endPair n r with results := rs, lastDelivering := a, notices := k } := by
  unfold Work.endPair; split <;> rfl

theorem Lane.delivered_cur (l : Lane) (halts : Bool) : (l.delivered halts).cur = none := by
  unfold Lane.delivered Lane.afterDelivery; dsimp only; split
  · rfl
  · split
    · rfl
    · split <;> rfl

theorem Lane.delivered_queue (l : Lane) (halts : Bool) : (l.delivered halts).queue = l.queue := by
  unfold Lane.delivered Lane.afterDelivery; dsimp only; split
  · rfl
  · split
    · rfl
    · split <;> rfl

theorem Lane.delivered_tx (l : Lane) (halts : Bool) : (l.delivered halts).tx = l.tx := by
  unfold Lane.delivered Lane.afterDelivery; dsimp only; split
  · rfl
  · split
    · rfl
    · split <;> rfl

/-- The run state after a delivery with no hold pending (R106, R107). -/
theorem Lane.delivered_unheld {l : Lane} (h : l.pendingHold = false) (halts : Bool) :
    l.delivered halts =
      { l with
        cur := none
        run := if halts = true then .halted else if l.run = .pausing then .paused else l.run } := by
  unfold Lane.delivered Lane.afterDelivery
  simp only [h, Bool.false_eq_true, if_false]
  split
  · rfl
  · split <;> rfl

theorem Lane.delivered_eq {l : Lane} (h : l.pendingHold = false) :
    l.delivered false = { l with cur := none, run := if l.run = .pausing then .paused else l.run } :=
  Lane.delivered_unheld h false

/-- The delivery of a host's step: its record at the end of the result queue, its lane, and the end of its pair. -/
theorem Work.deliver_pair {w : Work} (e : Env) {n : LaneId} {c : CurStep} (r : ResultRecord) (ho : c.step.origin = .host)
    (hz : (w.lane n).frozen = false) :
    ∃ k, w.deliver e n c r =
      { (w.onLane n fun l => l.delivered (verdictHalts (e.cfg n) r.verdict)).endPair n c.step with
        results := w.results ++ [r], lastDelivering := n, notices := k } := by
  obtain ⟨k₁, hentered⟩ := w.enterResult_notices n r
  have hlane : (w.enterResult n r).lane n = w.lane n := by rw [hentered]; rfl
  obtain ⟨k₂, hnoted⟩ := ((w.enterResult n r).setCur n none).noteRemoval_notices e n
    (((w.enterResult n r).lane n).queue.length + 1) (((w.enterResult n r).lane n).queue.length + 1 - 1)
  obtain ⟨k₃, hraised⟩ := ({ (w.enterResult n r).setCur n none with notices := k₂ } : Work).raiseVerdict_notices (e.cfg n) n
    r.verdict
  have hunfrozen : (({ (w.enterResult n r).setCur n none with notices := k₃ } : Work).onLane n fun l =>
      l.afterDelivery (verdictHalts (e.cfg n) r.verdict)).lane n = (w.lane n).delivered (verdictHalts (e.cfg n) r.verdict) := by
    rw [Work.lane_onLane, show (({ (w.enterResult n r).setCur n none with notices := k₃ } : Work).lane n) =
      ((w.enterResult n r).setCur n none).lane n from rfl, Work.lane_setCur, hlane]
    rfl
  have hfrozen : ((w.lane n).delivered (verdictHalts (e.cfg n) r.verdict)).frozen = false := by
    unfold Lane.delivered Lane.afterDelivery
    split
    · exact hz
    · split
      · exact hz
      · split <;> exact hz
  refine ⟨k₃, ?_⟩
  simp only [Work.deliver, ho, reduceCtorEq, if_false]
  rw [hnoted, hraised, Work.tryFollow_unfrozen e (by rw [Work.endPair_lane_self, hunfrozen]; exact hfrozen), hentered,
    ← Work.endPair_fields]
  have hcompose := w.onLane_onLane n (fun l => { l with cur := none }) fun l =>
    l.afterDelivery (verdictHalts (e.cfg n) r.verdict)
  exact congrArg (fun v : Work =>
    ({ v with results := w.results ++ [r], lastDelivering := n, notices := k₃ } : Work).endPair n c.step) hcompose

/-- The delivery of a host's step that is not FUSED. -/
theorem Work.deliver_host {w : Work} (e : Env) {n : LaneId} {c : CurStep} (r : ResultRecord) (ho : c.step.origin = .host)
    (hf : c.step.flags.fused = false) (hz : (w.lane n).frozen = false) :
    ∃ k, w.deliver e n c r =
      { w.onLane n fun l => l.delivered (verdictHalts (e.cfg n) r.verdict) with
        results := w.results ++ [r], lastDelivering := n, notices := k } := by
  obtain ⟨k, hk⟩ := Work.deliver_pair e r ho hz
  exact ⟨k, by rw [hk, Work.endPair_single _ hf]⟩

/-- A step in DELIVER delivers its record when the result queue has a free slot (R170). -/
theorem Work.offer_delivers {w : Work} (e : Env) {n : LaneId} {c : CurStep} {r : ResultRecord} (hc : (w.lane n).cur = some c)
    (hp : c.phase = .deliver) (hr : c.record = some r) (hlen : w.results.length < 128) :
    w.offer e n = w.deliver e n c r := by
  simp only [Work.offer, hc, hp, hr]
  exact if_pos hlen

/-- A host's step that is not FUSED and enters DELIVER with room in the result queue is delivered at once. -/
theorem Work.enterDeliver_host {w : Work} (e : Env) {n : LaneId} {c : CurStep} (r : ResultRecord)
    (ho : c.step.origin = .host) (hf : c.step.flags.fused = false) (hz : (w.lane n).frozen = false)
    (hlen : w.results.length < 128) :
    ∃ k, w.enterDeliver e n c r =
      { w.onLane n fun l => l.delivered (verdictHalts (e.cfg n) r.verdict) with
        results := w.results ++ [r], lastDelivering := n, notices := k } := by
  obtain ⟨d, hd⟩ : ∃ d : CurStep, d = { c with phase := .deliver, resume := none, record := some r } := ⟨_, rfl⟩
  have hoffer : (w.setCur n (some d)).offer e n = (w.setCur n (some d)).deliver e n d r :=
    Work.offer_delivers e (by simp) (by rw [hd]) (by rw [hd]) hlen
  obtain ⟨k, hk⟩ := Work.deliver_host (w := w.setCur n (some d)) e (n := n) (c := d) r (by rw [hd]; exact ho) (by rw [hd]; exact hf)
    (by simpa using hz)
  refine ⟨k, ?_⟩
  rw [Work.enterDeliver, ← hd, hoffer, hk, Work.setCur, Work.onLane_onLane]
  rfl

/-- The part after the delivery of a host's step that is not FUSED, field by field; causes may be raised. -/
structure Work.Delivers (w : Work) (n : LaneId) (r : ResultRecord) (halts : Bool) (v : Work) : Prop where
  lane : v.lane n = (w.lane n).delivered halts
  others : ∀ m, m ≠ n → v.lane m = w.lane m
  results : v.results = w.results ++ [r]
  last : v.lastDelivering = n
  nodes : v.nodes = w.nodes
  chain : v.chain = w.chain
  tokens : v.tokens = w.tokens
  wake : v.wake = w.wake
  freed : v.freed = w.freed

theorem Work.enterDeliver_delivers {w : Work} (e : Env) {n : LaneId} {c : CurStep} (r : ResultRecord)
    (ho : c.step.origin = .host) (hf : c.step.flags.fused = false) (hz : (w.lane n).frozen = false)
    (hlen : w.results.length < 128) :
    w.Delivers n r (verdictHalts (e.cfg n) r.verdict) (w.enterDeliver e n c r) := by
  obtain ⟨k, hk⟩ := Work.enterDeliver_host e r ho hf hz hlen
  rw [hk]
  exact ⟨w.lane_onLane n fun l => l.delivered (verdictHalts (e.cfg n) r.verdict), fun m hm => w.lane_onLane_ne (fun l => l.delivered (verdictHalts (e.cfg n) r.verdict)) hm,
    rfl, rfl, rfl, rfl, rfl, rfl, rfl⟩

/-! ### Release -/

/-- What the releases of a step may change of the part: entries, linger list, queues, shift and marks. -/
def Work.Releases (w v : Work) : Prop :=
  v =
    { w with
      nodes := { w.nodes with entries := v.nodes.entries, linger := v.nodes.linger }
      chain := { w.chain with queue := v.chain.queue, waiting := v.chain.waiting, shift := v.chain.shift }
      wake := v.wake, freed := v.freed }

theorem Work.Releases.refl (w : Work) : w.Releases w := by unfold Work.Releases; rfl

theorem Work.Releases.trans {u v w : Work} (h : u.Releases v) (k : v.Releases w) : u.Releases w := by
  unfold Work.Releases at h k ⊢
  rw [k, h]

theorem Work.releaseNode_releases (w : Work) (n : Nat) (t : Option Time) : w.Releases (w.releaseNode n t) := by
  unfold Work.Releases; rw [Work.releaseNode_frame]

theorem Work.releaseStep_releases (w : Work) (e : Env) (n : LaneId) (c : CurStep) : w.Releases (w.releaseStep e n c) := by
  unfold Work.releaseStep
  generalize c.nodes = ps
  induction ps generalizing w with
  | nil => exact Work.Releases.refl w
  | cons p ps ih =>
    rw [List.foldl_cons]
    refine Work.Releases.trans ?_ (ih _)
    split
    · exact w.releaseNode_releases _ _
    · exact Work.Releases.refl w

theorem Work.Releases.lane {w v : Work} (h : w.Releases v) (i : LaneId) : v.lane i = w.lane i := by
  rw [show v = _ from h]; rfl

theorem Work.Releases.results {w v : Work} (h : w.Releases v) : v.results = w.results := by rw [show v = _ from h]

theorem Work.Releases.order {w v : Work} (h : w.Releases v) : v.nodes.order = w.nodes.order := by rw [show v = _ from h]

theorem Work.holder_setDue (w : Work) (n m : Nat) : ((w.setDue n).node m).holder = (w.node m).holder := by
  by_cases h : m = n
  · subst h; rw [Work.node_setDue]
  · rw [Work.node_setDue_ne _ h]

theorem Work.holder_addLinger (w : Work) (n m : Nat) (t : Time) : ((w.addLinger n t).node m).holder = (w.node m).holder := by
  unfold Work.addLinger; dsimp only; split
  · split
    · exact Work.holder_setDue _ _ m
    · rfl
  · rfl

/-- A release takes the holder of its own node and of no other (R28). -/
theorem Work.holder_releaseNode (w : Work) (n m : Nat) (t : Option Time) :
    ((w.releaseNode n t).node m).holder = if m = n then .none else (w.node m).holder := by
  have hfree : ((w.freeNode n).node m).holder = if m = n then .none else (w.node m).holder := by
    by_cases h : m = n
    · rw [if_pos h, h, Work.node_freeNode]; rfl
    · rw [if_neg h, Work.node_freeNode_ne _ _ h]
  rw [← hfree, Work.releaseNode_eq]
  split
  · split
    · exact Work.holder_addLinger _ _ _ _
    · exact Work.holder_setDue _ _ _
  · exact Work.holder_setDue _ _ _
  · split <;> rfl
  · rfl

/-- The release of a step takes its lane as holder from each of its nodes (R28). -/
theorem Work.holder_releaseStep (w : Work) (e : Env) (n : LaneId) (c : CurStep) (m : Nat) :
    ((w.releaseStep e n c).node m).holder =
      if m ∈ c.nodes.map (·.1) ∧ (w.node m).holder = .lane n then .none else (w.node m).holder := by
  unfold Work.releaseStep
  generalize c.nodes = ps
  induction ps generalizing w with
  | nil => simp
  | cons p ps ih =>
    rw [List.foldl_cons, ih]
    by_cases hp : (w.node p.1).holder = .lane n
    · simp only [hp, if_true, Work.holder_releaseNode]
      by_cases hm : m = p.1
      · subst hm; simp [hp]
      · simp [hm]
    · simp only [hp, if_false]
      by_cases hm : m = p.1
      · subst hm; simp [hp]
      · simp [hm]

/-! ### CANCEL_LANE -/

theorem exec_cancelLane_format {s : State} {lane : Byte} (h : 4 ≤ lane.toNat) :
    exec (.cancelLane lane) s = .next { s with work := s.work.reply 0x02 .format [] } := by
  change execCancelLane lane s = _
  simp [execCancelLane, laneOf_of_ge h]

theorem exec_cancelLane {s : State} {lane : Byte} {n : LaneId} (h : n.val = lane.toNat) :
    exec (.cancelLane lane) s =
      .next
        { s with
          work :=
            ((s.work.cancelLane s.env n).1.finish s.env).reply 0x02 .ok [byte (s.work.cancelLane s.env n).2] } := by
  change execCancelLane lane s = _
  simp [execCancelLane, laneOf_of_val_eq h]

theorem exec_unitCancelLane {s : State} {n : LaneId} :
    exec (.unitCancelLane n) s =
      .next { s with work := ((s.work.hunt n).cancelLane s.env n).1.finish s.env } := rfl

section Cancel

variable {w : Work} {n : LaneId} {c : CurStep}

/-- With no step in progress or one in DELIVER, the records behind it go (R80). -/
theorem Work.cancelLane_records (e : Env) (h : ∀ c, (w.lane n).cur = some c → c.phase = .deliver) :
    w.cancelLane e n =
      ((w.setLane n { w.lane n with queue := [] }).noteRemoval e n (w.lane n).length
          (if (w.lane n).cur.isSome = true then 1 else 0), (w.lane n).queue.length) := by
  cases hc : (w.lane n).cur with
  | none => simp [Work.cancelLane, hc, Work.onLane, Lane.length]
  | some c => simp [Work.cancelLane, hc, h c hc, Work.onLane]

/-- A step at or before CLAIM that is not FUSED goes without a record (R80). -/
theorem Work.cancelLane_before (e : Env) (hc : (w.lane n).cur = some c) (hf : c.step.flags.fused = false)
    (hz : (w.lane n).frozen = false) (hp : c.phase = .none ∨ c.phase = .tokenWait ∨ c.phase = .claim) :
    ∃ k b, (b = true ∨ ¬ (c.phase = .claim ∨ c.resume = some .claim)) ∧
      w.cancelLane e n =
        (({ ((w.onLane n fun l => { l with queue := [] }).stopAll n).leaveClaim n with
            notices := k, wake := b } : Work).setCur n none, (w.lane n).length) := by
  have hdeliver : c.phase ≠ .deliver := by rcases hp with h | h | h <;> rw [h] <;> decide
  have hpast : c.phase.pastClaim = false := by rcases hp with h | h | h <;> rw [h] <;> rfl
  have hend : ∀ v : Work, (v.lane n).frozen = false →
      ∃ k, ((((v.setCur n none).noteRemoval e n (w.lane n).length 0).endPair n c.step).tryFollow e n) =
        { v.setCur n none with notices := k } := by
    intro v hv
    obtain ⟨k, hk⟩ := (v.setCur n none).noteRemoval_notices e n (w.lane n).length 0
    have hfrozen : (({ v.setCur n none with notices := k } : Work).lane n).frozen = false := by
      rw [show ({ v.setCur n none with notices := k } : Work).lane n = (v.setCur n none).lane n from rfl]
      simpa using hv
    exact ⟨k, by rw [hk, Work.endPair_single _ hf, Work.tryFollow_unfrozen e hfrozen]⟩
  have hleft : ((((w.onLane n fun l => { l with queue := [] }).stopAll n).leaveClaim n).lane n).frozen = false := by
    rw [Work.leaveClaim_lane, Work.stopAll_eq, Work.onLane_onLane, Work.lane_onLane]; exact hz
  simp only [Work.cancelLane, hc, hdeliver, if_false, hpast, Bool.false_eq_true]
  by_cases hcl : c.phase = .claim ∨ c.resume = some .claim
  · rw [if_pos hcl]
    obtain ⟨k, hk⟩ := hend { ((w.onLane n fun l => { l with queue := [] }).stopAll n).leaveClaim n with wake := true } hleft
    exact ⟨k, true, .inl rfl, by rw [hk]; rfl⟩
  · rw [if_neg hcl]
    obtain ⟨k, hk⟩ := hend (((w.onLane n fun l => { l with queue := [] }).stopAll n).leaveClaim n) hleft
    exact ⟨k, _, .inr hcl, by rw [hk]; rfl⟩

/-- The messages, lines and channels of a step that is aborted (R81, R144). -/
def Work.cutOff (w : Work) (e : Env) (n : LaneId) (c : CurStep) : Work :=
  ((w.sendAll (stepLanes n c.step) (.cancel c.step.tag c.attempt)).driveAll e (stepLanes n c.step) false false).stopStep n
    c.step

/-- The step in DELIVER that an abort leaves (R81). -/
def CurStep.aborted (c : CurStep) (n : LaneId) : CurStep :=
  { c with
    leader := c.leader.next, follower := c.follower.next, phase := .deliver, resume := none
    record := some (c.toRecord n .aborted) }

theorem Work.abortStep_eq (w : Work) (e : Env) (n : LaneId) (c : CurStep) :
    w.abortStep e n c = (((w.cutOff e n c).releaseHold n).releaseStep e n c).setCur n (some (c.aborted n)) := rfl

theorem Work.releaseHold_lane (w : Work) (n i : LaneId) : (w.releaseHold n).lane i = w.lane i := by
  unfold Work.releaseHold; split <;> rfl

theorem Work.releaseHold_results (w : Work) (n : LaneId) : (w.releaseHold n).results = w.results := by
  unfold Work.releaseHold; split <;> rfl

theorem Work.abortStep_lane (w : Work) (e : Env) (n : LaneId) (c : CurStep) :
    (w.abortStep e n c).lane n = { (w.cutOff e n c).lane n with cur := some (c.aborted n) } := by
  rw [Work.abortStep_eq, Work.setCur, Work.lane_onLane, (Work.releaseStep_releases _ e n c).lane, Work.releaseHold_lane]

theorem Work.abortStep_lane_ne (w : Work) (e : Env) {n m : LaneId} (c : CurStep) (h : m ≠ n) :
    (w.abortStep e n c).lane m = (w.cutOff e n c).lane m := by
  rw [Work.abortStep_eq, Work.lane_setCur_ne _ _ h, (Work.releaseStep_releases _ e n c).lane, Work.releaseHold_lane]

theorem Work.abortStep_results (w : Work) (e : Env) (n : LaneId) (c : CurStep) :
    (w.abortStep e n c).results = (w.cutOff e n c).results := by
  rw [Work.abortStep_eq, Work.setCur, Work.onLane_results, (Work.releaseStep_releases _ e n c).results,
    Work.releaseHold_results]

/-- A lane whose step is cut off: CANCEL to its unit, its lines low in AUTO mode and its channels stopped. -/
def Lane.cutOff (l : Lane) (auto : Bool) (c : CurStep) : Lane :=
  ({ l with
      tx := l.tx ++ [.cancel c.step.tag c.attempt]
      src := if auto then false else l.src, gate := if auto then false else l.gate } : Lane).stopped

theorem Work.cutOff_single (e : Env) (hf : c.step.flags.fused = false) (htx : (w.lane n).tx.length < 32) :
    w.cutOff e n c = w.onLane n fun l => l.cutOff (decide ((e.cfg n).lineMode = .auto)) c := by
  simp only [Work.cutOff, stepLanes_single hf, Work.sendAll, Work.driveAll, List.foldl_cons, List.foldl_nil,
    Work.send_room _ htx, Work.drive_eq, Work.stopStep_single _ hf, Work.onLane_onLane, Lane.cutOff]
  congr 1
  funext l
  by_cases h : (e.cfg n).lineMode = .auto <;> simp [h]

/-- A step past CLAIM of a host that is not FUSED is aborted: what stands at its lane and in the result queue (R81). -/
theorem Work.abortStep_offer_host (e : Env) (ho : c.step.origin = .host) (hf : c.step.flags.fused = false)
    (hz : (w.lane n).frozen = false) (htx : (w.lane n).tx.length < 32) (hlen : w.results.length < 128) :
    ∃ v : Work, (w.abortStep e n c).offer e n = v ∧
      v.results = w.results ++ [c.toRecord n .aborted] ∧
      v.lane n = ((w.lane n).cutOff (decide ((e.cfg n).lineMode = .auto)) c).delivered false ∧
      ∀ m, m ≠ n → v.lane m = w.lane m := by
  have hlane := w.abortStep_lane e n c
  have hcut := Work.cutOff_single e hf htx (w := w) (n := n)
  have hresults : (w.abortStep e n c).results = w.results := by rw [Work.abortStep_results, hcut, Work.onLane_results]
  rw [hcut, Work.lane_onLane] at hlane
  obtain ⟨k, hk⟩ := Work.deliver_host (w := w.abortStep e n c) e (n := n) (c := c.aborted n) (c.toRecord n .aborted) ho hf
    (by rw [hlane]; exact hz)
  refine ⟨_, (Work.offer_delivers e (by rw [hlane]) rfl rfl (by rw [hresults]; exact hlen)).trans hk, ?_, ?_, fun m hm => ?_⟩
  · rw [hresults]
  · exact (Work.lane_onLane (w.abortStep e n c) n fun l => l.delivered false).trans (by rw [hlane]; rfl)
  · exact (Work.lane_onLane_ne (w.abortStep e n c) (fun l => l.delivered false) hm).trans
      ((w.abortStep_lane_ne e c hm).trans (by rw [hcut, Work.lane_onLane_ne _ _ hm]))

theorem Work.noteRemoval_lane (w : Work) (e : Env) (n : LaneId) (before after : Nat) (i : LaneId) :
    (w.noteRemoval e n before after).lane i = w.lane i := by
  obtain ⟨k, hk⟩ := w.noteRemoval_notices e n before after
  rw [hk]; rfl

theorem Work.noteRemoval_results (w : Work) (e : Env) (n : LaneId) (before after : Nat) :
    (w.noteRemoval e n before after).results = w.results := by
  obtain ⟨k, hk⟩ := w.noteRemoval_notices e n before after
  rw [hk]

theorem Work.noteRemoval_wake (w : Work) (e : Env) (n : LaneId) (before after : Nat) :
    (w.noteRemoval e n before after).wake = w.wake := by
  obtain ⟨k, hk⟩ := w.noteRemoval_notices e n before after
  rw [hk]

theorem Work.cancelLane_past (e : Env) (hc : (w.lane n).cur = some c) (hp : c.phase.pastClaim = true) :
    w.cancelLane e n =
      ((((w.onLane n fun l => { l with queue := [] }).noteRemoval e n (w.lane n).length 1).abortStep e n c).offer e n,
        (w.lane n).queue.length) := by
  have hdeliver : c.phase ≠ .deliver := fun h => by rw [h] at hp; exact absurd hp (by decide)
  simp [Work.cancelLane, hc, hdeliver, hp]

end Cancel

theorem pastClaim_iff {p : StepPhase} :
    p.pastClaim = true ↔
      p = .switch ∨ p = .settle ∨ p = .readyWait ∨ p = .source ∨ p = .gate ∨ p = .resultWait := by
  cases p <;> simp [StepPhase.pastClaim]

/-- Settles O45: the queue goes alone with no step in progress or one in DELIVER; else the step's phase decides. -/
theorem cancelLaneEmptiesTheQueue : Obligations.CancelLaneEmptiesTheQueue := by
  refine ⟨fun s hrest => ⟨fun lane => exec_cancelLane_format, ?_⟩, ?_⟩
  · intro n hph l kept mark note
    refine ⟨fun lane hn => ?_, ?_⟩
    · have hwake : ((s.work.setLane n { l with queue := [] }).noteRemoval s.env n l.length kept).wake = false :=
        (Work.noteRemoval_wake _ _ _ _ _).trans hrest.1
      rw [exec_cancelLane hn, Work.cancelLane_records s.env hph, Work.finish_rested hwake]
      rfl
    · have hlane : (s.work.hunt n).lane n = { l with rx := .hunting } := by simp [Work.hunt, l]
      have hcancel := Work.cancelLane_records (w := s.work.hunt n) (n := n) s.env (by rw [hlane]; exact hph)
      rw [hlane] at hcancel
      have hset : (s.work.hunt n).setLane n { l with queue := [], rx := .hunting } =
          s.work.setLane n { l with queue := [], rx := .hunting } := Work.setLane_setLane _ _ _ _
      have hfirst : ((s.work.hunt n).cancelLane s.env n).1 =
          (s.work.setLane n { l with queue := [], rx := .hunting }).noteRemoval s.env n l.length kept :=
        (congrArg Prod.fst hcancel).trans (congrArg (fun v : Work => v.noteRemoval s.env n l.length kept) hset)
      have hwake := (Work.noteRemoval_wake (s.work.setLane n { l with queue := [], rx := .hunting }) s.env n l.length
        kept).trans hrest.1
      rw [exec_unitCancelLane, hfirst, Work.finish_rested hwake]
      rfl
  · intro w e n c l t hc hf hz
    refine ⟨fun hp => ?_, fun hp ho hh htx hlen => ?_⟩
    · obtain ⟨k, b, hb, hcancel⟩ := Work.cancelLane_before e hc hf hz hp
      have ht : t = _ := congrArg Prod.fst hcancel
      obtain ⟨u, hu⟩ : ∃ u : Work, u = (w.onLane n fun l => { l with queue := [] }).stopAll n := ⟨_, rfl⟩
      have hlane : u.lane n = ({ l with queue := [] } : Lane).stopped := by
        rw [hu, Work.stopAll_eq, Work.onLane_onLane, Work.lane_onLane]
      have hother : ∀ m, m ≠ n → u.lane m = w.lane m := fun m hm => by
        rw [hu, Work.stopAll_eq, Work.onLane_onLane, Work.lane_onLane_ne _ _ hm]
      have ht : t = ({ u.leaveClaim n with notices := k, wake := b } : Work).setCur n none := by
        rw [hu]; exact congrArg Prod.fst hcancel
      rw [ht]
      refine ⟨congrArg Prod.snd hcancel, ?_, ?_, u.leaveClaim_order n, u.leaveClaim_waiter n, fun hcl => ?_,
        fun m hm => ?_⟩
      · exact (Work.leaveClaim_results u n).trans (by rw [hu]; rfl)
      · rw [Work.lane_setCur, show ({ u.leaveClaim n with notices := k, wake := b } : Work).lane n = (u.leaveClaim n).lane n
          from rfl, Work.leaveClaim_lane, hlane]
        rfl
      · exact hb.resolve_right (not_not_intro hcl)
      · rw [Work.lane_setCur_ne _ _ hm, ← hother m hm]
        exact Work.leaveClaim_lane u n m
    · obtain ⟨u, hu⟩ : ∃ u : Work, u = (w.onLane n fun l => { l with queue := [] }).noteRemoval e n l.length 1 := ⟨_, rfl⟩
      have hlane : u.lane n = { l with queue := [] } := by rw [hu, Work.noteRemoval_lane, Work.lane_onLane]
      have hresults : u.results = w.results := by rw [hu, Work.noteRemoval_results]; rfl
      have hcancel : w.cancelLane e n = ((u.abortStep e n c).offer e n, l.queue.length) := by
        rw [hu]; exact Work.cancelLane_past e hc (pastClaim_iff.2 hp)
      obtain ⟨v, hv, hvr, hvl, hvo⟩ := Work.abortStep_offer_host (w := u) (n := n) (c := c) e ho hf (by rw [hlane]; exact hz)
        (by rw [hlane]; exact htx) (by rw [hresults]; exact hlen)
      have ht : t = v := (congrArg Prod.fst hcancel).trans hv
      rw [hlane] at hvl
      rw [ht]
      refine ⟨congrArg Prod.snd hcancel, by rw [hvr, hresults], ?_, ?_, ?_, ?_, fun m hm => ?_⟩
      · rw [hvl]; exact Lane.delivered_cur _ _
      · rw [hvl]; exact Lane.delivered_queue _ _
      · rw [hvl]; exact Lane.delivered_tx _ _
      · rw [hvl, Lane.delivered_eq (by exact hh)]; rfl
      · rw [hvo m hm, hu, Work.noteRemoval_lane, Work.lane_onLane_ne _ _ hm]

end Sys2Proof.Machine
end

section
/-! PROOFS, family 02_the_node_map.md: the release of a whole step, and C3's expiry. -/

namespace Sys2Proof.Machine

/-! ### The nodes of a step that lie CLOSED -/

/-- The node is one that a release takes to the linger list or to the OPEN frames: CLOSED for the lane, not due. -/
def Work.holdsClosed (w : Work) (n : LaneId) (m : Nat) : Prop :=
  (w.node m).phase = .closed ∧ (w.node m).holder = .lane n ∧ (w.node m).target = none ∧ (w.node m).due = false

theorem earlier_self (t : Time) : earlier t t = false := by simp [earlier]

theorem insertLinger_between (n : Nat) {t : Time} {pre post : List (Nat × Time)} (hpre : ∀ p ∈ pre, earlier t p.2 = false)
    (hpost : ∀ p, post.head? = some p → earlier t p.2 = true) :
    insertLinger n t (pre ++ post) = pre ++ (n, t) :: post := by
  induction pre with
  | nil =>
    cases post with
    | nil => rfl
    | cons p post => obtain ⟨k, u⟩ := p; simp [insertLinger, hpost (k, u) rfl]
  | cons p pre ih =>
    obtain ⟨k, u⟩ := p
    have hu : earlier t u = false := hpre (k, u) (by simp)
    simp [insertLinger, hu, ih fun p hp => hpre p (by simp [hp])]

theorem NodeEntry.freed_of_no_target {x : NodeEntry} (h : x.target = none) : x.freed = { x with holder := .none } := by
  cases x; subst h; rfl

/-- The nodes of a step, each CLOSED, linger in list order behind every entry that expires no later (R30). -/
theorem Work.releaseStep_lingers {e : Env} {n : LaneId} {c : CurStep} {t : Time} (ht : lingerUntil e n c.step = some t)
    (ps : List (Nat × Fin 20)) (w : Work) (pre post : List (Nat × Time)) (hd : (ps.map (·.1)).Nodup)
    (hps : ∀ p ∈ ps, w.holdsClosed n p.1) (hl : w.nodes.linger = pre ++ post)
    (hpre : ∀ p ∈ pre, earlier t p.2 = false) (hpost : ∀ p, post.head? = some p → earlier t p.2 = true)
    (hlen : w.nodes.linger.length + ps.length ≤ 128) :
    ∃ v : Work, w.releaseStep e n { c with nodes := ps } = v ∧ v.nodes.linger = pre ++ ps.map (fun p => (p.1, t)) ++ post ∧
      v.chain = w.chain ∧ v.freed = w.freed ∧ (w.dueNodes = [] → v.dueNodes = []) ∧
      ∀ m, v.node m = if m ∈ ps.map (·.1) then { w.node m with holder := .none } else w.node m := by
  induction ps generalizing w pre with
  | nil => exact ⟨w, rfl, by simpa using hl, rfl, rfl, id, fun m => by simp⟩
  | cons p ps ih =>
    obtain ⟨hphase, hholder, htarget, hdue⟩ := hps p (by simp)
    rw [List.map_cons, List.nodup_cons] at hd
    rw [List.length_cons] at hlen
    have hrel : w.releaseNode p.1 (some t) =
        { w.freeNode p.1 with nodes := { (w.freeNode p.1).nodes with linger := pre ++ (p.1, t) :: post } } := by
      rw [Work.releaseNode_lingers hphase htarget, Work.addLinger_fits _ _ (by exact (by omega : w.nodes.linger.length < 128)),
        ← insertLinger_between p.1 hpre hpost, ← hl]
      rfl
    obtain ⟨u, hu⟩ : ∃ u : Work, u = w.releaseNode p.1 (some t) := ⟨_, rfl⟩
    have hnode : u.node p.1 = { w.node p.1 with holder := .none } := by
      rw [hu, hrel, ← NodeEntry.freed_of_no_target htarget, ← Work.node_freeNode]; rfl
    have hother : ∀ m, m ≠ p.1 → u.node m = w.node m := fun m hm => by
      rw [hu, hrel, ← Work.node_freeNode_ne w p.1 hm]; rfl
    have hne : ∀ q ∈ ps, q.1 ≠ p.1 := fun q hq h => hd.1 (h ▸ List.mem_map_of_mem hq)
    have hlinger : u.nodes.linger = (pre ++ [(p.1, t)]) ++ post := by rw [hu, hrel]; simp
    obtain ⟨v, hv, hvl, hvc, hvf, hvd, hvn⟩ := ih u (pre ++ [(p.1, t)]) hd.2
      (fun q hq => by unfold Work.holdsClosed; rw [hother q.1 (hne q hq)]; exact hps q (by simp [hq])) hlinger
      (fun q hq => by
        rcases List.mem_append.1 hq with hq | hq
        · exact hpre q hq
        · rw [List.mem_singleton.1 hq]; exact earlier_self t)
      (by rw [hlinger]; rw [hl] at hlen; simp at hlen ⊢; omega)
    refine ⟨v, ?_, by rw [hvl]; simp, by rw [hvc, hu, hrel]; rfl, by rw [hvf, hu, hrel]; rfl, fun h => hvd ?_, fun m => ?_⟩
    · rw [Work.releaseStep_cons, if_pos hholder, ht, ← hu]; exact hv
    · rw [hu, hrel]; exact Work.dueNodes_freeNode h p.1
    · rw [hvn]
      by_cases hm : m = p.1
      · subst hm
        simp [hd.1, hnode]
      · simp [hm, hother m hm]

/-- The nodes of a step, each CLOSED, become due at once (R29, R38). -/
theorem Work.releaseStep_due {e : Env} {n : LaneId} {c : CurStep} (ht : lingerUntil e n c.step = none)
    (ps : List (Nat × Fin 20)) (w : Work) (hd : (ps.map (·.1)).Nodup) (hps : ∀ p ∈ ps, w.holdsClosed n p.1) :
    ∃ v : Work, w.releaseStep e n { c with nodes := ps } = v ∧ v.nodes.linger = w.nodes.linger ∧ v.chain = w.chain ∧
      v.freed = w.freed ∧ (v.wake = true ∨ ps = []) ∧ (w.wake = true → v.wake = true) ∧
      (entriesWf w.nodes.entries → entriesWf v.nodes.entries) ∧
      ∀ m, v.node m = if m ∈ ps.map (·.1) then { w.node m with holder := .none, due := true } else w.node m := by
  induction ps generalizing w with
  | nil => exact ⟨w, rfl, rfl, rfl, rfl, .inr rfl, id, id, fun m => by simp⟩
  | cons p ps ih =>
    obtain ⟨hphase, hholder, htarget, hdue⟩ := hps p (by simp)
    rw [List.map_cons, List.nodup_cons] at hd
    obtain ⟨u, hu⟩ : ∃ u : Work, u = (w.freeNode p.1).setDue p.1 := ⟨_, rfl⟩
    have hnode : u.node p.1 = { w.node p.1 with holder := .none, due := true } := by
      rw [hu, Work.node_setDue, Work.node_freeNode, NodeEntry.freed_of_no_target htarget]
    have hother : ∀ m, m ≠ p.1 → u.node m = w.node m := fun m hm => by
      rw [hu, Work.node_setDue_ne _ hm, Work.node_freeNode_ne _ _ hm]
    have hne : ∀ q ∈ ps, q.1 ≠ p.1 := fun q hq h => hd.1 (h ▸ List.mem_map_of_mem hq)
    obtain ⟨v, hv, hvl, hvc, hvf, _, hvw, hve, hvn⟩ := ih u hd.2
      fun q hq => by unfold Work.holdsClosed; rw [hother q.1 (hne q hq)]; exact hps q (by simp [hq])
    have hwake : v.wake = true := hvw (by rw [hu]; rfl)
    refine ⟨v, ?_, by rw [hvl, hu]; rfl, by rw [hvc, hu]; rfl, by rw [hvf, hu]; rfl, .inl hwake, fun _ => hwake,
      fun h => hve ?_, fun m => ?_⟩
    · rw [Work.releaseStep_cons, if_pos hholder, ht, Work.releaseNode_due hphase htarget, ← hu]; exact hv
    · rw [hu]; exact entriesWf_putEntry (entriesWf_putEntry h _ _) _ _
    · rw [hvn]
      by_cases hm : m = p.1
      · subst hm
        simp [hd.1, hnode]
      · simp [hm, hother m hm]

/-! ### Due nodes, in ascending order -/

theorem Work.mem_dueNodes {w : Work} (h : entriesWf w.nodes.entries) (m : Nat) :
    m ∈ w.dueNodes ↔ (w.node m).wantsOpen = true := by
  rw [Work.dueNodes_eq]
  constructor
  · intro hm
    obtain ⟨⟨k, x⟩, hp, rfl⟩ := List.mem_map.1 hm
    obtain ⟨hmem, hx⟩ := List.mem_filter.1 hp
    rwa [show w.node k = x from entryAt_of_mem h hmem]
  · intro hx
    have hne : w.node m ≠ .reset := fun he => by rw [he, NodeEntry.reset_wantsOpen] at hx; simp at hx
    exact List.mem_map.2 ⟨_, List.mem_filter.2 ⟨mem_of_entryAt hne, hx⟩, rfl⟩

theorem Work.dueNodes_sorted {w : Work} (h : entriesWf w.nodes.entries) : w.dueNodes.Pairwise (· < ·) :=
  h.1.sublist (List.Sublist.map _ List.filter_sublist)

theorem Work.node_foldl_openDue (ns : List Nat) (w : Work) (m : Nat) :
    (ns.foldl Work.openDue w).node m = if m ∈ ns then { w.node m with due := false } else w.node m := by
  induction ns generalizing w with
  | nil => simp
  | cons n ns ih =>
    rw [List.foldl_cons, ih]
    by_cases hm : m = n
    · subst hm; simp [Work.node_openDue]
    · simp [hm, Work.node_openDue_ne w hm]

/-- Handing out slots changes due flags and the two queues alone (R45). -/
theorem Work.finish_serves {w : Work} (ho : w.nodes.order = []) (e : Env) :
    ∃ v : Work, w.finish e = v ∧ v.lanes = w.lanes ∧ v.results = w.results ∧
      ∀ m, ∃ d, v.node m = { w.node m with due := d } := by
  by_cases hw : w.wake = true
  · refine ⟨_, Work.finish_unclaimed ho hw e, ?_, ?_, fun m => ?_⟩
    · exact Work.serveSlots_lanes _
    · rw [Work.serveSlots_eq]
    · have hnode := Work.node_foldl_openDue
        (({ w with wake := false, freed := false } : Work).moveWaiting.dueNodes.take
          ({ w with wake := false, freed := false } : Work).moveWaiting.chain.freeSlots)
        ({ w with wake := false, freed := false } : Work).moveWaiting m
      by_cases hm : m ∈ ({ w with wake := false, freed := false } : Work).moveWaiting.dueNodes.take
          ({ w with wake := false, freed := false } : Work).moveWaiting.chain.freeSlots
      · exact ⟨false, hnode.trans (if_pos hm)⟩
      · exact ⟨(w.node m).due, hnode.trans (if_neg hm)⟩
  · exact ⟨w, Work.finish_rested (by simpa using hw) e, rfl, rfl, fun m => ⟨(w.node m).due, rfl⟩⟩

/-- With room for every due node, each gets its OPEN frame (R32). -/
theorem Work.serveSlots_all {w : Work} (hq : w.chain.waiting = [])
    (hfit : w.chain.queue.length + w.dueNodes.length ≤ 64) : w.serveSlots = w.dueNodes.foldl Work.openDue w := by
  have hfree : w.chain.freeSlots = 64 - w.chain.queue.length := by simp [Chain.freeSlots, hq, Config.frameQueueCap]
  rw [Work.serveSlots, Work.moveWaiting_none hq, Work.dueProcessing, hfree, List.take_of_length_le (by omega)]

end Sys2Proof.Machine
end

section
/-! PROOFS, family 02_the_node_map.md: TOKEN_TIMEOUT and TIMEOUT. -/

namespace Sys2Proof.Machine

section Watch

variable {s : State} {n : LaneId} {c : CurStep}

theorem exec_tokenTimeout (hc : (s.work.lane n).cur = some c) (hp : c.phase = .tokenWait)
    (hx : (s.work.lane n).c3.expiring = true) :
    exec (.tokenTimeout n) s =
      .next
        { s with
          work :=
            ((s.work.onLane n fun l => { l with c3 := l.c3.expire }).enterDeliver s.env n c
              (c.toRecord n .tokenTimeout)).finish s.env } := by
  change execTokenTimeout n s = _
  simp [execTokenTimeout, hc, hp, hx]

/-- The lane of a step whose C3 has expired: CANCEL to the unit, the channels stopped and the lines low (R102). -/
def Lane.timedOut (l : Lane) (c : CurStep) : Lane :=
  { l with
    src := false, gate := false, tx := l.tx ++ [.cancel c.step.tag c.attempt]
    c0 := l.c0.stop, c1 := l.c1.stop, c2 := l.c2.stop
    c3 := { l.c3 with counting := false, count := 0, start := none, due := false } }

theorem Channel.stop_expire (ch : Channel) :
    ch.expire.stop = { ch with counting := false, count := 0, start := none, due := false } := rfl

/-- The step that a TIMEOUT delivers. -/
def CurStep.ended (c : CurStep) (e : Env) (n : LaneId) : CurStep := c.timedOut (e.cfg n).timeoutAction

theorem exec_timeout (hc : (s.work.lane n).cur = some c) (hp : c.phase = .readyWait ∨ c.phase = .resultWait)
    (hx : (s.work.lane n).c3.expiring = true) (hf : c.step.flags.fused = false) (htx : (s.work.lane n).tx.length < 32)
    (ha : (s.fix.lanes[n.val]).lineMode = .auto) :
    exec (.timeout n) s =
      .next
        { s with
          work :=
            ((((s.work.onLane n fun l => l.timedOut c).releaseStep s.env n c).enterDeliver s.env n (c.ended s.env n)
              ((c.ended s.env n).toRecord n .timeout))).finish s.env } := by
  have hroom : (({ s.work.lane n with c3 := (s.work.lane n).c3.expire } : Lane)).tx.length < 32 := htx
  change execTimeout n s = _
  simp only [execTimeout, onWork, hc, hx, and_true, if_pos hp, Work.complete, stepLanes_single hf,
    show stepLanes n (c.timedOut (s.env.cfg n).timeoutAction).step = [n] from stepLanes_single hf]
  rw [show ∀ v : Work, v.sendAll [n] (.cancel c.step.tag c.attempt) = v.send n (.cancel c.step.tag c.attempt) from
      fun _ => rfl, Work.send_room _ (by rw [Work.lane_onLane]; exact hroom), Work.stopStep_single _ hf,
    Work.driveAll_auto (e := s.env) _ _ _ ha]
  simp only [Work.onLane_onLane]
  rfl

theorem Work.finish_all_due {w : Work} (ho : w.nodes.order = []) (hq : w.chain.waiting = []) (hwake : w.wake = true)
    (hfit : w.chain.queue.length + w.dueNodes.length ≤ 64) (e : Env) :
    ∃ v : Work, w.finish e = v ∧ v.nodes.linger = w.nodes.linger ∧
      v.chain.queue = w.chain.queue ++ w.dueNodes.map .opn ∧
      ∀ m, v.node m = if m ∈ w.dueNodes then { w.node m with due := false } else w.node m := by
  have hserve : ({ w with wake := false, freed := false } : Work).serveSlots =
      w.dueNodes.foldl Work.openDue { w with wake := false, freed := false } := Work.serveSlots_all (by exact hq) hfit
  refine ⟨_, Work.finish_unclaimed ho hwake e, ?_, ?_, fun m => ?_⟩
  · rw [hserve, Work.foldl_openDue_eq]
  · rw [hserve, Work.foldl_openDue_eq]
  · exact (congrArg (fun v : Work => v.node m) hserve).trans
      (Work.node_foldl_openDue w.dueNodes { w with wake := false, freed := false } m)

end Watch

theorem Work.dueNodes_congr {w v : Work} (h : v.nodes = w.nodes) : v.dueNodes = w.dueNodes := by
  rw [Work.dueNodes_eq, Work.dueNodes_eq, h]

/-! ### The nodes of a timed-out step -/

/-- The delivered part stands on the nodes, the chain and the slot mark that the release left. -/
structure Work.StandsOn (r d : Work) : Prop where
  nodes : d.nodes = r.nodes
  chain : d.chain = r.chain
  wake : d.wake = r.wake
  freed : d.freed = r.freed

section Nodes

variable {w d : Work} {n : LaneId} {c : CurStep} {e : Env}

/-- The nodes of a step with a linger time, in a part in which nothing waits: all linger, and no frame is queued. -/
theorem Work.finish_lingers {t : Time} {pre post : List (Nat × Time)} (hw : w.calm)
    (hd : (w.releaseStep e n c).StandsOn d) (ht : lingerUntil e n c.step = some t) (hnd : (c.nodes.map (·.1)).Nodup)
    (hps : ∀ p ∈ c.nodes, w.holdsClosed n p.1) (hp : PartedAt w.nodes.linger pre post t)
    (hlen : w.nodes.linger.length + c.nodes.length ≤ 128) :
    (∀ m, (d.finish e).node m = if m ∈ c.nodes.map (·.1) then { w.node m with holder := .none } else w.node m) ∧
      (d.finish e).chain.queue = w.chain.queue ∧
      (d.finish e).nodes.linger = pre ++ c.nodes.map (fun p => (p.1, t)) ++ post := by
  obtain ⟨_, hfreed, ho, hq, hdue⟩ := hw
  obtain ⟨hl, hpre, hpost⟩ := hp
  obtain ⟨r, hr, hrl, hrc, hrf, hrd, hrn⟩ := Work.releaseStep_lingers ht c.nodes w pre post hnd hps hl hpre hpost hlen
  have hr : w.releaseStep e n c = r := hr
  have hord : r.nodes.order = [] := by rw [← hr, (w.releaseStep_releases e n c).order, ho]
  rw [hr] at hd
  have hfin := Work.finish_of_calm (w := d) (by rw [hd.nodes, hord]) (by rw [hd.chain, hrc, hq])
    (by rw [Work.dueNodes_congr hd.nodes, hrd hdue]) (fun hf => by rw [hd.freed, hrf, hfreed] at hf; simp at hf) e
  rw [hfin]
  refine ⟨fun m => ?_, ?_, ?_⟩
  · exact (Work.node_congr hd.nodes m).trans (hrn m)
  · exact (congrArg (·.queue) hd.chain).trans (congrArg (·.queue) hrc)
  · exact (congrArg (·.linger) hd.nodes).trans hrl

/-- The nodes of a step with no linger time, in a part in which nothing waits: each gets its OPEN frame, in ascending
node number. -/
theorem Work.finish_opens (hw : w.calm) (hwf : entriesWf w.nodes.entries) (hd : (w.releaseStep e n c).StandsOn d)
    (ht : lingerUntil e n c.step = none) (hnd : (c.nodes.map (·.1)).Nodup)
    (hps : ∀ p ∈ c.nodes, w.holdsClosed n p.1) (hlen : w.chain.queue.length + c.nodes.length ≤ 64) :
    (∀ m, (d.finish e).node m = if m ∈ c.nodes.map (·.1) then { w.node m with holder := .none } else w.node m) ∧
      (d.finish e).nodes.linger = w.nodes.linger ∧
      ∃ ks : List Nat, ks.Perm (c.nodes.map (·.1)) ∧ ks.Pairwise (· < ·) ∧
        (d.finish e).chain.queue = w.chain.queue ++ ks.map .opn := by
  obtain ⟨hwake, hfreed, ho, hq, hdue⟩ := hw
  obtain ⟨r, hr, hrl, hrc, hrf, hrw, _, hre, hrn⟩ := Work.releaseStep_due ht c.nodes w hnd hps
  have hr : w.releaseStep e n c = r := hr
  have hord : r.nodes.order = [] := by rw [← hr, (w.releaseStep_releases e n c).order, ho]
  rw [hr] at hd
  have hnode : ∀ m, d.node m = r.node m := Work.node_congr hd.nodes
  have hwfd : entriesWf d.nodes.entries := by rw [hd.nodes]; exact hre hwf
  have hmem : ∀ m, m ∈ d.dueNodes ↔ m ∈ c.nodes.map (·.1) := fun m => by
    rw [Work.mem_dueNodes hwfd, hnode, hrn]
    split
    · next hm =>
      obtain ⟨p, hp, rfl⟩ := List.mem_map.1 hm
      simp [NodeEntry.wantsOpen, (hps p hp).1, hm]
    · next hm => simp [Work.wantsOpen_of_dueNodes hdue m, hm]
  have hsorted := Work.dueNodes_sorted hwfd
  have hperm : d.dueNodes.Perm (c.nodes.map (·.1)) :=
    (List.perm_ext_iff_of_nodup (hsorted.imp Nat.ne_of_lt) hnd).2 hmem
  have hfit : d.chain.queue.length + d.dueNodes.length ≤ 64 := by
    rw [hperm.length_eq, List.length_map, hd.chain, hrc]; exact hlen
  have hclear : ∀ m, (if m ∈ d.dueNodes then { d.node m with due := false } else d.node m) =
      if m ∈ c.nodes.map (·.1) then { w.node m with holder := .none } else w.node m := fun m => by
    simp only [hmem, hnode, hrn]
    split
    · next hm =>
      obtain ⟨p, hp, rfl⟩ := List.mem_map.1 hm
      rw [← (hps p hp).2.2.2]
    · rfl
  rcases hrw with hrw | hnil
  · obtain ⟨v, hv, hvl, hvq, hvn⟩ := Work.finish_all_due (w := d) (by rw [hd.nodes, hord]) (by rw [hd.chain, hrc, hq])
      (by rw [hd.wake, hrw]) hfit e
    rw [hv]
    exact ⟨fun m => (hvn m).trans (hclear m), by rw [hvl, hd.nodes, hrl], d.dueNodes, hperm, hsorted,
      by rw [hvq, hd.chain, hrc]⟩
  · have hnone : d.dueNodes = [] := by rw [hnil] at hperm; exact hperm.eq_nil
    have hfin := Work.finish_of_calm (w := d) (by rw [hd.nodes, hord]) (by rw [hd.chain, hrc, hq]) hnone
      (fun hf => by rw [hd.freed, hrf, hfreed] at hf; simp at hf) e
    rw [hfin]
    refine ⟨fun m => ?_, (congrArg (·.linger) hd.nodes).trans hrl, [], ?_, List.Pairwise.nil, ?_⟩
    · exact (show _ = d.node m from rfl).trans (by simpa [hnone] using hclear m)
    · rw [hnil]; exact List.Perm.nil
    · rw [List.map_nil, List.append_nil]; exact (congrArg (·.queue) hd.chain).trans (congrArg (·.queue) hrc)

end Nodes

theorem lingerUntil_some {e : Env} {n : LaneId} {r : StepRecord} (hr : r.flags.releaseNow = false)
    (hl : (e.cfg n).linger ≠ 0) : lingerUntil e n r = some (e.now + BitVec.ofNat 32 (e.cfg n).linger) :=
  if_neg (by simp [hr, hl])

theorem lingerUntil_none {e : Env} {n : LaneId} {r : StepRecord}
    (h : r.flags.releaseNow = true ∨ (e.cfg n).linger = 0) : lingerUntil e n r = none := if_pos h

/-- Every linger list has a place for an expiry: behind each entry that expires no later (R30). -/
theorem exists_parted (t : Time) (ls : List (Nat × Time)) : ∃ pre post, PartedAt ls pre post t := by
  obtain ⟨pre, post, h, _⟩ := insertLinger_parted 0 t ls
  exact ⟨pre, post, h⟩

theorem CurStep.toRecord_ended {c : CurStep} (e : Env) (n : LaneId) (ho : c.step.origin = .host)
    (hf : c.step.flags.fused = false) :
    (c.ended e n).toRecord n .timeout =
      { tag := c.step.tag, lane := n, origin := .host, verdict := .timeout, error := none
        attempts := c.attemptsUsed + 1
        value := if (e.cfg n).timeoutAction = .substitute then 8388607 else -8388608
        raw := c.leader.raw, settle := c.captured, saturated := (e.cfg n).timeoutAction = .substitute, capped := c.capped
        overpost := c.overpost, token := c.token, follower := none } := by
  cases h : (e.cfg n).timeoutAction <;>
    simp [CurStep.toRecord, CurStep.ended, CurStep.timedOut, h, ho, hf, SideState.next, Config.maxValue, Config.noReading]

/-- Settles O55: the delivery of the step, and at TIMEOUT the release of its nodes behind it. -/
theorem watchExpiryEndsTheStep : Obligations.WatchExpiryEndsTheStep := by
  intro s n c l action hc hx hf ho hz hh hlen
  refine ⟨fun hp hrest => ?_, fun hp hord htx ha => ?_⟩
  · have hd := Work.enterDeliver_delivers (w := s.work.onLane n fun l => { l with c3 := l.c3.expire }) s.env (n := n)
      (c := c) (c.toRecord n .tokenTimeout) ho hf (by rw [Work.lane_onLane]; exact hz) hlen
    rw [exec_tokenTimeout hc hp hx, Work.finish_rested (by rw [hd.wake]; exact hrest.1)]
    refine ⟨_, rfl, hd.results, hd.nodes, hd.chain, hd.tokens, ?_, fun m hm => ?_⟩
    · rw [hd.lane, Work.lane_onLane]; exact Lane.delivered_eq (by exact hh)
    · rw [hd.others m hm, Work.lane_onLane_ne _ _ hm]
  · obtain ⟨u, hu⟩ : ∃ u : Work, u = s.work.onLane n fun l => l.timedOut c := ⟨_, rfl⟩
    obtain ⟨r, hr⟩ : ∃ r : Work, r = u.releaseStep s.env n c := ⟨_, rfl⟩
    have hrel : u.Releases r := by rw [hr]; exact u.releaseStep_releases _ _ _
    have hlane : r.lane n = l.timedOut c := by rw [hrel.lane, hu, Work.lane_onLane]
    have hother : ∀ m, m ≠ n → r.lane m = s.work.lane m := fun m hm => by
      rw [hrel.lane, hu, Work.lane_onLane_ne _ _ hm]
    have hresults : r.results = s.work.results := by rw [hrel.results, hu]; rfl
    have hdel := Work.enterDeliver_delivers (w := r) s.env (n := n) (c := c.ended s.env n)
      ((c.ended s.env n).toRecord n .timeout) ho hf (by rw [hlane]; exact hz) (by rw [hresults]; exact hlen)
    obtain ⟨d, hd⟩ : ∃ d : Work, d = r.enterDeliver s.env n (c.ended s.env n) ((c.ended s.env n).toRecord n .timeout) :=
      ⟨_, rfl⟩
    rw [← hd] at hdel
    have hdn : ∀ m, d.node m = r.node m := Work.node_congr hdel.nodes
    have hdord : d.nodes.order = [] := by rw [hdel.nodes, hrel.order, hu]; exact hord
    obtain ⟨v, hv, hvl, hvr, hvn⟩ := Work.finish_serves hdord s.env
    have hvlane : ∀ m, v.lane m = d.lane m := fun m => congrArg (fun ls : Vector Lane 4 => ls[m.val]) hvl
    refine ⟨v, ?_, ?_, ?_, fun m => ?_, fun m hm => ?_, ?_⟩
    · rw [exec_timeout hc hp hx hf htx ha, ← hu, ← hr, ← hd, hv]
    · rw [hvr, hdel.results, hresults, CurStep.toRecord_ended s.env n ho hf]
      rfl
    · rw [hvlane, hdel.lane, hlane, Lane.delivered_unheld (by exact hh)]
      simp only [verdictHalts, CurStep.toRecord, decide_eq_true_eq]
      rfl
    · obtain ⟨b, hb⟩ := hvn m
      rw [hb, hdn, hr]
      refine (u.holder_releaseStep s.env n c m).trans ?_
      rw [hu]; rfl
    · rw [hvlane, hdel.others m hm, hother m hm]
    · intro hcalm hwf hnd hps linger expiry freed
      have hstands : (u.releaseStep s.env n c).StandsOn d := by
        rw [← hr]; exact ⟨hdel.nodes, hdel.chain, hdel.wake, hdel.freed⟩
      have hclosed : ∀ p ∈ c.nodes, u.holdsClosed n p.1 := by
        rw [hu]
        exact fun p hp => hps p hp
      have hcalmu : u.calm := by rw [hu]; exact hcalm
      have hwfu : entriesWf u.nodes.entries := by rw [hu]; exact hwf
      have hnode : ∀ m, u.node m = s.work.node m := by rw [hu]; exact fun _ => rfl
      have hlinger : u.nodes.linger = s.work.nodes.linger := by rw [hu]; rfl
      have hqueue : u.chain.queue = s.work.chain.queue := by rw [hu]; rfl
      refine ⟨fun hnow hling hroom => ?_, fun hnow hroom => ?_⟩
      · obtain ⟨pre, post, hparted⟩ := exists_parted expiry s.work.nodes.linger
        obtain ⟨hfreed, hq, hl⟩ := Work.finish_lingers (e := s.env) hcalmu hstands (lingerUntil_some hnow (by exact hling))
          hnd hclosed (hlinger ▸ hparted) (hlinger ▸ hroom)
        simp only [hv, hnode] at hfreed hq hl
        obtain ⟨hsplit, hpre, hpost⟩ := hparted
        exact ⟨hfreed, hq.trans hqueue, pre, post, hsplit, hl, hpre, hpost⟩
      · obtain ⟨hfreed, hl, ks, hperm, hsorted, hq⟩ := Work.finish_opens (e := s.env) hcalmu hwfu hstands
          (lingerUntil_none hnow) hnd hclosed (hqueue ▸ hroom)
        simp only [hv, hnode] at hfreed hl hq
        exact ⟨hfreed, hl.trans hlinger, ks, hperm, hsorted, hqueue ▸ hq⟩

end Sys2Proof.Machine
end

section
/-! PROOFS, family 02_the_node_map.md: ADMISSION: rejection, the token wait, and a claim that is granted at once. -/

namespace Sys2Proof.Machine

/-! ### The claim of the one lane that claims -/

theorem Work.tryClaim_unlisted {w : Work} (e : Env) {a : LaneId} (h : a ∉ w.nodes.order) : w.tryClaim e a = (w, false) := by
  cases hc : (w.lane a).cur with
  | none => simp [Work.tryClaim, hc]
  | some c => exact Work.tryClaim_idle e hc fun hcl => h hcl.2.2

theorem mem_lanesAfter : ∀ n m : LaneId, n ∈ lanesAfter m := by decide

/-- With one lane in the claim order list whose claim is granted, the passes of an event grant that claim alone. -/
theorem Work.arbitrate_one {w v : Work} {e : Env} {n : LaneId} {b : Bool} (ho : w.nodes.order = [n])
    (hc : w.tryClaim e n = (v, b)) (hv : v.nodes.order = []) (k : Nat) : Work.arbitrate e (k + 1) w = v := by
  have hdone : ∀ (xs : List LaneId) (b : Bool), xs.foldl (fun (p : Work × Bool) a =>
      ((p.1.tryClaim e a).1, p.2 || (p.1.tryClaim e a).2)) (v, b) = (v, b) := by
    intro xs
    induction xs with
    | nil => exact fun _ => rfl
    | cons x xs ih => intro b; rw [List.foldl_cons, Work.tryClaim_unclaimed hv]; simpa using ih b
  have hscan : ∀ xs : List LaneId, n ∈ xs → ∃ d, xs.foldl (fun (p : Work × Bool) a =>
      ((p.1.tryClaim e a).1, p.2 || (p.1.tryClaim e a).2)) (w, false) = (v, d) := by
    intro xs
    induction xs with
    | nil => intro h; simp at h
    | cons x xs ih =>
      intro h
      rw [List.foldl_cons]
      by_cases hx : x = n
      · subst hx; rw [hc]; exact ⟨_, hdone xs _⟩
      · rw [Work.tryClaim_unlisted e (by rw [ho]; simpa using hx)]
        exact ih ((List.mem_cons.1 h).resolve_left (Ne.symm hx))
  obtain ⟨d, hd⟩ := hscan _ (mem_lanesAfter n w.nodes.lastWinner)
  have hpass : w.pass e = (v, d) := hd
  rw [Work.arbitrate, hpass]
  cases d
  · rfl
  · exact Work.arbitrate_unclaimed hv e k

/-! ### Nodes of a claim that are OPEN and free -/

/-- The node is OPEN with no target, so a claim takes it by row 1 (R22). -/
def Work.opensFree (w : Work) (m : Nat) : Prop := (w.node m).phase = .opened ∧ (w.node m).target = none

theorem Work.takeNode_opened {w : Work} {h : Holder} {n : Nat} (b : Fin 20) (hn : w.opensFree n) :
    w.takeNode h n b = (w.setNode n { w.node n with holder := h, target := some b }).enqueue (.close n b) := by
  simp only [Work.takeNode, Work.claimRow_opened hn.1 hn.2]

/-- The nodes of a claim by row 1: each held with its target, its CLOSE frame queued in list order (R22). -/
theorem Work.takeNodes_opened (h : Holder) (ps : List (Nat × Fin 20)) (w : Work) (hd : (ps.map (·.1)).Nodup)
    (hps : ∀ p ∈ ps, w.opensFree p.1) (hwf : entriesWf w.nodes.entries) :
    ∃ v : Work, ps.foldl (fun (w : Work) p => w.takeNode h p.1 p.2) w = v ∧
      v = { w with
            nodes := { w.nodes with entries := v.nodes.entries }
            chain := { w.chain with queue := w.chain.queue ++ ps.map fun p => .close p.1 p.2 } } ∧
      (∀ p ∈ ps, v.node p.1 = { w.node p.1 with holder := h, target := some p.2 }) ∧
      (∀ m, m ∉ ps.map (·.1) → v.node m = w.node m) ∧ (w.dueNodes = [] → v.dueNodes = []) ∧
      entriesWf v.nodes.entries := by
  induction ps generalizing w with
  | nil => exact ⟨w, rfl, by simp, by simp, fun _ _ => rfl, id, hwf⟩
  | cons p ps ih =>
    rw [List.map_cons, List.nodup_cons] at hd
    obtain ⟨u, hu⟩ : ∃ u : Work, u = (w.setNode p.1 { w.node p.1 with holder := h, target := some p.2 }).enqueue
      (.close p.1 p.2) := ⟨_, rfl⟩
    have hnode : u.node p.1 = { w.node p.1 with holder := h, target := some p.2 } := by rw [hu]; exact w.node_setNode _ _
    have hother : ∀ m, m ≠ p.1 → u.node m = w.node m := fun m hm => by rw [hu]; exact w.node_setNode_ne _ hm
    have hne : ∀ q ∈ ps, q.1 ≠ p.1 := fun q hq he => hd.1 (he ▸ List.mem_map_of_mem hq)
    obtain ⟨v, hv, hframe, hvn, hvo, hvd, hve⟩ := ih u hd.2
      (fun q hq => by unfold Work.opensFree; rw [hother q.1 (hne q hq)]; exact hps q (by simp [hq]))
      (by rw [hu]; exact entriesWf_putEntry hwf _ _)
    refine ⟨v, ?_, ?_, fun q hq => ?_, fun m hm => ?_, fun hdue => hvd ?_, hve⟩
    · rw [List.foldl_cons, Work.takeNode_opened p.2 (hps p (by simp)), ← hu, hv]
    · rw [hu] at hframe
      simpa [Work.enqueue, Work.setNode] using hframe
    · rcases List.mem_cons.1 hq with rfl | hq
      · rw [hvo _ hd.1, hnode]
      · rw [hvn q hq, hother q.1 (hne q hq)]
    · rw [List.map_cons, List.mem_cons, not_or] at hm
      rw [hvo m hm.2, hother m hm.1]
    · rw [hu]
      exact Work.dueNodes_setNode hdue p.1 (by simp [NodeEntry.wantsOpen, (hps p (by simp)).1])

theorem Work.leaveClaim_unmarked {w : Work} {a : LaneId} (hwf : entriesWf w.nodes.entries)
    (h : ∀ m, (w.node m).waiter ≠ some a) :
    w.leaveClaim a = { w with nodes := { w.nodes with order := w.nodes.order.filter (· != a) } } := by
  have hnone : (w.nodes.entries.any fun p => decide (p.2.waiter = some a)) = false := by
    rw [List.any_eq_false]
    intro p hp
    have hnode : w.node p.1 = p.2 := entryAt_of_mem hwf hp
    simpa using hnode ▸ h p.1
  simp only [Work.leaveClaim, Work.clearMarks, hnone, Bool.false_eq_true, if_false]

theorem Work.framesNeeded_le (w : Work) (ps : List (Nat × Fin 20)) : w.framesNeeded ps ≤ ps.length := List.countP_le_length

section Grant

variable {w : Work} {e : Env} {n : LaneId} {c : CurStep}

/-- The part once the nodes of a claim by row 1 are granted: out of the claim order list, the last winner. -/
theorem Work.grantNodes_opened (ho : w.nodes.order = [n]) (hwf : entriesWf w.nodes.entries)
    (hd : (c.nodes.map (·.1)).Nodup) (hmarks : ∀ m, (w.node m).waiter ≠ some n) (hps : ∀ p ∈ c.nodes, w.opensFree p.1) :
    ∃ v : Work, w.grantNodes n c = v ∧
      v = { w with
            nodes := { w.nodes with entries := v.nodes.entries, order := [], lastWinner := n }
            chain := { w.chain with queue := w.chain.queue ++ c.nodes.map fun p => .close p.1 p.2 }
            wake := false, freed := false } ∧
      (∀ p ∈ c.nodes, v.node p.1 = { w.node p.1 with holder := .lane n, target := some p.2 }) ∧
      (∀ m, m ∉ c.nodes.map (·.1) → v.node m = w.node m) ∧ (w.dueNodes = [] → v.dueNodes = []) := by
  obtain ⟨u, hu, hframe, hun, huo, hud, huwf⟩ := Work.takeNodes_opened (.lane n) c.nodes
    { w with wake := false, freed := false } hd hps hwf
  have humarks : ∀ m, (u.node m).waiter ≠ some n := fun m => by
    by_cases hm : m ∈ c.nodes.map (·.1)
    · obtain ⟨p, hp, rfl⟩ := List.mem_map.1 hm
      rw [hun p hp]; exact hmarks p.1
    · rw [huo m hm]; exact hmarks m
  have horder : u.nodes.order.filter (· != n) = [] := by rw [hframe]; simp [ho]
  have hgrant : w.grantNodes n c = { u with nodes := { u.nodes with order := [], lastWinner := n } } := by
    simp only [Work.grantNodes, hu, Work.leaveClaim_unmarked huwf humarks, horder]
  refine ⟨_, hgrant, ?_, hun, huo, hud⟩
  rw [hframe]

/-- A claim on nodes that are OPEN and free, with slots for their frames, is granted (R22, R94). -/
theorem Work.tryClaim_opened (hc : (w.lane n).cur = some c) (hr : (w.lane n).run = .running) (hp : c.phase = .claim)
    (hf : c.step.flags.fused = false) (ho : w.nodes.order = [n]) (hwf : entriesWf w.nodes.entries)
    (hd : (c.nodes.map (·.1)).Nodup) (hne : c.nodes ≠ []) (hmarks : ∀ m, (w.node m).waiter ≠ some n)
    (hps : ∀ p ∈ c.nodes, w.opensFree p.1 ∧ (w.node p.1).holder = .none ∧ (w.node p.1).waiter = none)
    (hs : c.nodes.length ≤ w.chain.freeSlots) (htx : (w.lane n).tx.length < 32) :
    ∃ v : Work, w.tryClaim e n = (v, false) ∧
      v = { w with
            lanes := v.lanes
            nodes := { w.nodes with entries := v.nodes.entries, order := [], lastWinner := n }
            chain := { w.chain with queue := w.chain.queue ++ c.nodes.map fun p => .close p.1 p.2 }
            wake := false, freed := false } ∧
      v.lane n =
        { w.lane n with
          cur := some c.claimed
          tx := (w.lane n).tx ++ [.setup c.step.tag c.attempt c.step.function c.step.range c.step.stimulus] } ∧
      (∀ m, m ≠ n → v.lane m = w.lane m) ∧
      (∀ p ∈ c.nodes, v.node p.1 = { w.node p.1 with holder := .lane n, target := some p.2 }) ∧
      (∀ m, m ∉ c.nodes.map (·.1) → v.node m = w.node m) ∧ (w.dueNodes = [] → v.dueNodes = []) := by
  have hblocked : w.blockedNodes n c = [] := by
    rw [Work.blockedNodes, List.filter_eq_nil_iff]
    intro m hm
    obtain ⟨p, hpm, rfl⟩ := List.mem_map.1 hm
    rw [Work.blockedFor_iff]
    obtain ⟨_, hholder, hwaiter⟩ := hps p hpm
    simp [hholder, hwaiter]
  have hclaim := Work.tryClaim_granted e hc ⟨hr, hp, by simp [ho]⟩ hblocked
    ((w.framesNeeded_le c.nodes).trans hs)
  obtain ⟨g, hg, hframe, hgn, hgo, hgd⟩ := Work.grantNodes_opened (c := c) ho hwf hd hmarks fun p hpm => (hps p hpm).1
  have hmarks0 : g.wake = false ∧ g.freed = false := by rw [hframe]; exact ⟨rfl, rfl⟩
  have hglane : ∀ m, g.lane m = w.lane m := by rw [hframe]; exact fun _ => rfl
  have hset : ({ g with wake := false, freed := false } : Work) = g := Work.unmarked_eq hmarks0
  obtain ⟨v, hv⟩ : ∃ v : Work, v = g.onLane n fun l =>
      { l with
        cur := some c.claimed
        tx := l.tx ++ [.setup c.step.tag c.attempt c.step.function c.step.range c.step.stimulus] } := ⟨_, rfl⟩
  have hsetup : (g.setCur n (some c.claimed)).sendSetup n c = v := by
    rw [hv, Work.sendSetup, stepLanes_single hf]
    refine (Work.send_room _ ?_).trans (by rw [Work.setCur, Work.onLane_onLane])
    rw [Work.lane_setCur, hglane]
    exact htx
  have hvn : ∀ m, v.node m = g.node m := by rw [hv]; exact fun _ => rfl
  have hopen : v.checkSwitch e n = v := by
    refine Work.checkSwitch_open (c := c.claimed) (by rw [hv]; simp) fun _ => ?_
    obtain ⟨p, hpm⟩ := List.exists_mem_of_ne_nil _ hne
    refine ⟨p, hpm, ?_⟩
    have hphase : (v.node p.1).phase = .opened := by rw [hvn, hgn p hpm]; exact (hps p hpm).1.1
    simp [Work.countsClosed, hphase]
  have htake : w.takeClaim e n c = (v, false) := by
    simp only [Work.takeClaim, hg, hmarks0.2, Bool.false_eq_true, if_false, hset, hsetup, hopen, hmarks0.1]
  refine ⟨v, hclaim.trans htake, ?_, ?_, fun m hm => ?_, fun p hpm => (hvn p.1).trans (hgn p hpm),
    fun m hm => (hvn m).trans (hgo m hm), fun hdue => ?_⟩
  · rw [hv, hframe]; rfl
  · rw [hv, Work.lane_onLane, hglane]
  · rw [hv, Work.lane_onLane_ne _ _ hm, hglane]
  · rw [hv]; exact hgd hdue

end Grant

/-- The end of an event that frees no slot: the passes alone, when nothing is left to hand out. -/
theorem Work.finish_passes {w v : Work} {e : Env} (hw : w.wake = true) (hf : w.freed = false)
    (h : Work.arbitrate e passBound { w with wake := false, freed := false } = v) (hq : v.chain.waiting = [])
    (hd : v.dueNodes = []) (hm : v.rested) : w.finish e = v := by
  simp only [Work.finish, hw, hf, if_true, Bool.false_eq_true, if_false, h, Work.serveSlots_none hq hd, Work.unmarked_eq hm]

/-! ### Admission -/

theorem translateAll_of_admissionCheck {fix : Fixed} {n : LaneId} {r : StepRecord} {nodes : List (Nat × Fin 20)}
    (h : admissionCheck fix n r = .ok nodes) :
    rolesOk r = true ∧ ∃ ps, translateAll fix r.connections = .ok ps ∧ nodes = ps.zip (r.connections.map (requiredBus n r)) := by
  by_cases hf : fuseOk fix n r = true
  · by_cases hr : rolesOk r = true
    · by_cases hl : limitsOk r = true
      · cases hps : translateAll fix r.connections with
        | error err => rw [admissionCheck_untranslated hf hr hl hps] at h; simp at h
        | ok ps =>
          rw [admissionCheck_translated hf hr hl hps] at h
          split at h
          · exact ⟨hr, ps, rfl, (Except.ok.inj h).symm⟩
          · simp at h
      · rw [admissionCheck_limits hf hr hl] at h; simp at h
    · rw [admissionCheck_roles hf hr] at h; simp at h
  · rw [admissionCheck_fuse hf] at h; simp at h

/-- A step that passes the checks has nodes, for it has a HI connection (R76). -/
theorem nodes_ne_nil_of_admissionCheck {fix : Fixed} {n : LaneId} {r : StepRecord} {nodes : List (Nat × Fin 20)}
    (h : admissionCheck fix n r = .ok nodes) : nodes ≠ [] := by
  obtain ⟨hr, ps, hps, rfl⟩ := translateAll_of_admissionCheck h
  have hlen := length_translateAll hps
  intro hnil
  have hconn : r.connections = [] := by
    cases hk : r.connections with
    | nil => rfl
    | cons k ks =>
      rw [hk] at hlen hnil
      cases ps with
      | nil => simp at hlen
      | cons p ps => simp at hnil
  simp [rolesOk, hconn] at hr

section Admission

variable {s : State} {n : LaneId} {r : StepRecord} {rest : List StepRecord}

theorem exec_admission (hr : (s.work.lane n).run = .running) (hc : (s.work.lane n).cur = none)
    (hz : (s.work.lane n).frozen = false) (hq : (s.work.lane n).queue = r :: rest) :
    exec (.admission n) s = .next { s with work := (s.work.admitHead s.env n).finish s.env } := by
  have hadmit : (s.work.lane n).inAdmit = true := by simp [Lane.inAdmit, hr, hc, hz, hq]
  change execAdmission n s = _
  simp only [execAdmission, onWork, hadmit, if_true]

theorem Work.admitHead_rejected {w : Work} {e : Env} {err : AdmissionError} (hq : (w.lane n).queue = r :: rest)
    (h : admissionCheck e.fix n r = .error err) :
    w.admitHead e n =
      (w.onLane n fun l => { l with queue := rest }).enterDeliver e n (CurStep.admitted r []) (rejectedRecord n r err) := by
  simp only [Work.admitHead, hq, h]

theorem Work.admitHead_admitted {w : Work} {e : Env} {nodes : List (Nat × Fin 20)} (hq : (w.lane n).queue = r :: rest)
    (h : admissionCheck e.fix n r = .ok nodes) (hf : r.flags.fused = false) :
    w.admitHead e n = (w.onLane n fun l => { l with queue := rest }).enterWaits e n (CurStep.admitted r nodes) := by
  simp only [Work.admitHead, hq, h, Work.startStep]
  exact if_neg (by simp [CurStep.admitted, hf])

theorem rejectedRecord_single (n : LaneId) {r : StepRecord} (err : AdmissionError) (ho : r.origin = .host)
    (hf : r.flags.fused = false) :
    rejectedRecord n r err =
      ⟨r.tag, n, .host, .rejected, some err, 0, -8388608, none, none, false, false, false, none, none⟩ := by
  simp [rejectedRecord, ho, hf, Config.noReading]

theorem Work.enterWaits_unposted {w : Work} (e : Env) {c : CurStep} {k : Fin 32} (hk : c.step.waitToken = some k)
    (ht : c.token = none) (hp : w.tokens[k.val] = none) :
    w.enterWaits e n c =
      w.onLane n fun l =>
        { l with
          cur := some { c with phase := .tokenWait, resume := none }
          c3 := Channel.startDown e.clock c.step.flags.coarse c.step.watch } := by
  simp only [Work.enterWaits, hk, ht, Work.enterTokenWait, hp, Work.startWatch, Work.setCur, Work.onLane_onLane]

theorem Work.enterWaits_claim {w : Work} (e : Env) {c : CurStep} (hk : c.step.waitToken = none) :
    w.enterWaits e n c =
      (w.onLane n fun l => { l with cur := some { c with phase := .claim, resume := none } }).joinClaim n := by
  simp only [Work.enterWaits, hk, Work.enterClaim, Work.setCur]

end Admission

/-- Settles O51: the rejected record, the token wait, and the one claim of the event, which its first pass grants. -/
theorem admissionRejectsWaitsOrSwitches : Obligations.AdmissionRejectsWaitsOrSwitches := by
  intro s n r rest l hrun hc hz hq hf
  refine ⟨fun err herr ho hh hrest hlen => ?_, fun nodes k hok hk hpost hrest => ?_, ?_⟩
  · have hd := Work.enterDeliver_delivers (w := s.work.onLane n fun l => { l with queue := rest }) s.env (n := n)
      (c := CurStep.admitted r []) (rejectedRecord n r err) ho hf (by rw [Work.lane_onLane]; exact hz) hlen
    rw [exec_admission hrun hc hz hq, Work.admitHead_rejected hq herr, Work.finish_rested (by rw [hd.wake]; exact hrest.1)]
    refine ⟨_, rfl, ?_, hd.last, ?_, fun m hm => ?_, hd.nodes, hd.chain, hd.tokens⟩
    · rw [hd.results, rejectedRecord_single n err ho hf]; rfl
    · rw [hd.lane, Work.lane_onLane]
      refine (Lane.delivered_eq (by exact hh)).trans ?_
      simp [hrun, hc, l]
    · rw [hd.others m hm, Work.lane_onLane_ne _ _ hm]
  · rw [exec_admission hrun hc hz hq, Work.admitHead_admitted hq hok hf,
      Work.enterWaits_unposted (c := CurStep.admitted r nodes) s.env hk rfl (by exact hpost), Work.onLane_onLane,
      Work.finish_rested (by exact hrest.1)]
    rfl
  · intro nodes hok hk hcalm hwf hmarks hfree hslots htx
    obtain ⟨hwake, hfreed, hord, hwait, hdue⟩ := hcalm
    obtain ⟨c, hcur⟩ : ∃ c : CurStep, c = { CurStep.admitted r nodes with phase := .claim, resume := none } := ⟨_, rfl⟩
    have hnodes : c.nodes = nodes := by rw [hcur]; rfl
    obtain ⟨u, hu⟩ : ∃ u : Work, u = (s.work.onLane n fun l => { l with queue := rest, cur := some c }).joinClaim n := ⟨_, rfl⟩
    have henter : s.work.admitHead s.env n = u := by
      rw [Work.admitHead_admitted hq hok hf, Work.enterWaits_claim (c := CurStep.admitted r nodes) s.env hk,
        Work.onLane_onLane, hu, hcur]
    obtain ⟨z, hzdef⟩ : ∃ z : Work, z = { u with wake := false, freed := false } := ⟨_, rfl⟩
    have hlane : z.lane n = { l with queue := rest, cur := some c } := by
      rw [hzdef, hu]; exact Work.lane_onLane s.work n fun l => { l with queue := rest, cur := some c }
    have hother : ∀ m, m ≠ n → z.lane m = s.work.lane m := fun m hm => by
      rw [hzdef, hu]; exact s.work.lane_onLane_ne (fun l => { l with queue := rest, cur := some c }) hm
    have horder : z.nodes.order = [n] := by
      rw [hzdef, hu]; exact (congrArg (fun o : List LaneId => o.filter (· != n) ++ [n]) hord).trans (by simp)
    have hnode : ∀ m, z.node m = s.work.node m := by rw [hzdef, hu]; exact fun _ => rfl
    have hchain : z.chain = s.work.chain := by rw [hzdef, hu]; rfl
    obtain ⟨v, htry, hframe, hvl, hvo, hvn, hvf, hvd⟩ := Work.tryClaim_opened (e := s.env) (n := n) (c := c) (w := z)
      (by rw [hlane]) (by rw [hlane]; exact hrun) (by rw [hcur]) (by rw [hcur]; exact hf) horder
      (by rw [hzdef, hu]; exact hwf) (by rw [hnodes]; exact distinctNodes_of_admissionCheck hok)
      (by rw [hnodes]; exact nodes_ne_nil_of_admissionCheck hok) (fun m => by rw [hnode]; exact hmarks m)
      (fun p hp => by
        obtain ⟨hphase, hholder, htarget, hwaiter⟩ := hfree p (hnodes ▸ hp)
        unfold Work.opensFree
        rw [hnode]
        exact ⟨⟨hphase, htarget⟩, hholder, hwaiter⟩)
      (by rw [hnodes, hchain]; exact hslots) (by rw [hlane]; exact htx)
    have hpasses : Work.arbitrate s.env passBound { u with wake := false, freed := false } = v := by
      rw [← hzdef]; exact Work.arbitrate_one horder htry (by rw [hframe]) 1023
    have hzdue : z.dueNodes = [] := by rw [hzdef, hu]; exact hdue
    have hfin := Work.finish_passes (w := u) (by rw [hu]; rfl) (by rw [hu]; exact hfreed) hpasses
      (by rw [hframe, hchain]; exact hwait) (hvd hzdue) (by rw [hframe]; exact ⟨rfl, rfl⟩)
    rw [exec_admission hrun hc hz hq, henter, hfin]
    rw [hnodes] at hvn hvf
    refine ⟨v, rfl, ?_, fun m hm => (hvo m hm).trans (hother m hm), ?_, fun p hp => ?_, fun m hm => ?_, by rw [hframe],
      by rw [hframe], ?_, ?_, ?_⟩
    · rw [hvl, hlane, hcur]; rfl
    · rw [hframe, hchain, hnodes]
    · rw [hvn p hp, hnode]
    · rw [hvf m hm, hnode]
    · rw [hframe, hzdef, hu]; rfl
    · rw [hframe, hzdef, hu]; rfl
    · rw [hframe, hzdef, hu]; rfl

end Sys2Proof.Machine
end

section
/-! PROOFS, family 02_the_node_map.md: CLEAR at the lanes, the node map and the chain. -/

namespace Sys2Proof.Machine

/-! ### Messages of a CLEAR -/

/-- A message joins the lane's transmit list, or is dropped past 32 (R196). -/
def Lane.push (l : Lane) (m : UnitMessage) : Lane := if l.tx.length < 32 then { l with tx := l.tx ++ [m] } else l

def Lane.pushAll (l : Lane) (ms : List UnitMessage) : Lane := ms.foldl Lane.push l

theorem Lane.pushAll_append (l : Lane) (ms ks : List UnitMessage) : l.pushAll (ms ++ ks) = (l.pushAll ms).pushAll ks :=
  List.foldl_append

theorem Lane.push_eq (l : Lane) (m : UnitMessage) : l.push m = { l with tx := (l.push m).tx } := by
  unfold Lane.push; split <;> rfl

theorem Lane.pushAll_eq (l : Lane) (ms : List UnitMessage) : l.pushAll ms = { l with tx := (l.pushAll ms).tx } := by
  induction ms generalizing l with
  | nil => rfl
  | cons m ms ih => rw [Lane.pushAll, List.foldl_cons, ← Lane.pushAll, ih, Lane.push_eq]

theorem Lane.prefix_tx_pushAll (l : Lane) (ms : List UnitMessage) : l.tx <+: (l.pushAll ms).tx := by
  induction ms generalizing l with
  | nil => exact List.prefix_rfl
  | cons m ms ih =>
    refine List.IsPrefix.trans ?_ (ih (l.push m))
    unfold Lane.push; split
    · exact List.prefix_append _ _
    · exact List.prefix_rfl

theorem Lane.tx_push {l : Lane} (h : l.tx.length ≤ 32) (m : UnitMessage) : (l.push m).tx = (l.tx ++ [m]).take 32 := by
  unfold Lane.push; split
  · rw [List.take_of_length_le (by simp; omega)]
  · rw [List.take_append_of_le_length (by omega), List.take_of_length_le h]

theorem take_take_append {α : Type} (k : Nat) (xs ys : List α) : (xs.take k ++ ys).take k = (xs ++ ys).take k := by
  rw [List.take_append, List.take_append, List.take_take, Nat.min_self, List.length_take]
  congr 2
  omega

/-- What stands in the transmit list after messages that join it: those that fit (R196). -/
theorem Lane.tx_pushAll {l : Lane} (h : l.tx.length ≤ 32) (ms : List UnitMessage) :
    (l.pushAll ms).tx = (l.tx ++ ms).take 32 := by
  induction ms generalizing l with
  | nil => rw [List.append_nil, List.take_of_length_le h]; rfl
  | cons m ms ih =>
    have hpush := Lane.tx_push h m
    have hlen : (l.push m).tx.length ≤ 32 := by rw [hpush]; exact List.length_take_le _ _
    rw [Lane.pushAll, List.foldl_cons, ← Lane.pushAll, ih hlen, hpush]
    rw [take_take_append, List.append_assoc]
    rfl

/-- The step of a lane that CLEAR cuts off: one from SWITCH to RESULT_WAIT (R202). -/
def Lane.dropped (l : Lane) : List CurStep :=
  match l.cur with
  | some c => if c.phase.pastClaim then [c] else []
  | none => []

/-- CANCEL for a step. -/
def CurStep.cancel (c : CurStep) : UnitMessage := .cancel c.step.tag c.attempt

/-- A lane at its starting condition with its link kept (R202). -/
def Lane.cleared (l : Lane) : Lane :=
  { Lane.reset with rx := l.rx, arrived := l.arrived, tx := l.tx, sending := l.sending }

theorem Work.lane_send (w : Work) (m n : LaneId) (x : UnitMessage) :
    (w.send m x).lane n = if n = m then (w.lane n).push x else w.lane n := by
  unfold Work.send Lane.push
  by_cases hn : n = m
  · subst hn
    by_cases h : (w.lane n).tx.length < 32
    · rw [if_pos rfl, if_pos h, if_pos (by exact h), Work.lane_onLane]
    · rw [if_pos rfl, if_neg h, if_neg (by exact h)]; rfl
  · rw [if_neg hn]
    split
    · exact Work.lane_onLane_ne _ _ hn
    · rfl

/-- The FUSED steps that CLEAR cuts off at a lane's leader, whose CANCEL goes to the lane as well (R202). -/
def Work.leaderDropped (w : Work) (n m : LaneId) : List CurStep :=
  if (n = 1 ∧ m = 0) ∨ (n = 3 ∧ m = 2) then (w.lane m).dropped.filter fun c => c.step.flags.fused else []

theorem fusedFollower_ne {m f : LaneId} {r : StepRecord} (h : fusedFollower m r = some f) : f ≠ m := by
  unfold fusedFollower at h
  split at h
  · rw [← Option.some.inj h]; exact (followerOf_ne m).symm
  · simp at h

/-- A message to every unit of a step joins the transmit lists of its lane and of its follower. -/
theorem Work.lane_sendStep (w : Work) (m n : LaneId) (r : StepRecord) (x : UnitMessage) :
    (w.sendAll (stepLanes m r) x).lane n =
      if n = m ∨ fusedFollower m r = some n then (w.lane n).push x else w.lane n := by
  cases hf : fusedFollower m r with
  | none =>
    simp only [Work.sendAll, stepLanes, hf, Option.toList_none, List.foldl_cons, List.foldl_nil, Work.lane_send,
      reduceCtorEq, or_false]
  | some f =>
    have hne := fusedFollower_ne hf
    simp only [Work.sendAll, stepLanes, hf, Option.toList_some, List.foldl_cons, List.foldl_nil, Work.lane_send]
    by_cases hnm : n = m
    · subst hnm; simp [Ne.symm hne]
    · by_cases hnf : n = f
      · subst hnf; simp [hne]
      · simp [hnm, hnf, Ne.symm hnf]

/-- The CANCEL messages of one lane's CLEAR, before the lane itself is reset. -/
def Work.cancelStep (w : Work) (m : LaneId) : Work :=
  match (w.lane m).cur with
  | some c => if c.phase.pastClaim then w.sendAll (stepLanes m c.step) c.cancel else w
  | none => w

theorem Work.clearLane_eq (w : Work) (m : LaneId) : w.clearLane m = (w.cancelStep m).onLane m Lane.cleared := rfl

theorem Work.cancelStep_lane_self (w : Work) (m : LaneId) :
    (w.cancelStep m).lane m = (w.lane m).pushAll ((w.lane m).dropped.map CurStep.cancel) := by
  unfold Work.cancelStep Lane.dropped
  cases hc : (w.lane m).cur with
  | none => rfl
  | some c =>
    cases hp : c.phase.pastClaim
    · simp only [hp]; rfl
    · simp only [hp, if_true, Work.lane_sendStep, true_or]; rfl

theorem Work.cancelStep_lane_ne (w : Work) {m n : LaneId} (h : n ≠ m) :
    (w.cancelStep m).lane n = (w.lane n).pushAll ((w.leaderDropped n m).map CurStep.cancel) := by
  have hfollower : ∀ r : StepRecord, fusedFollower m r = some n ↔
      r.flags.fused = true ∧ ((n = 1 ∧ m = 0) ∨ (n = 3 ∧ m = 2)) := by
    intro r
    unfold fusedFollower
    revert n m
    cases r.flags.fused <;> decide
  unfold Work.cancelStep Work.leaderDropped Lane.dropped
  cases hc : (w.lane m).cur with
  | none => simp [Lane.pushAll]
  | some c =>
    cases hp : c.phase.pastClaim
    · simp [hp, Lane.pushAll]
    · simp only [hp, if_true, Work.lane_sendStep, h, false_or, hfollower]
      by_cases hpair : (n = 1 ∧ m = 0) ∨ (n = 3 ∧ m = 2)
      · cases hfused : c.step.flags.fused <;> simp [hpair, hfused, Lane.pushAll]
      · simp [hpair, Lane.pushAll]

theorem Work.clearLane_lane_self (w : Work) (m : LaneId) :
    (w.clearLane m).lane m = ((w.lane m).pushAll ((w.lane m).dropped.map CurStep.cancel)).cleared := by
  rw [Work.clearLane_eq, Work.lane_onLane, Work.cancelStep_lane_self]

theorem Work.clearLane_lane_ne (w : Work) {m n : LaneId} (h : n ≠ m) :
    (w.clearLane m).lane n = (w.lane n).pushAll ((w.leaderDropped n m).map CurStep.cancel) := by
  rw [Work.clearLane_eq, Work.lane_onLane_ne _ _ h, Work.cancelStep_lane_ne w h]

theorem Lane.dropped_pushAll (l : Lane) (ms : List UnitMessage) : (l.pushAll ms).dropped = l.dropped := by
  rw [Lane.pushAll_eq]; rfl

/-- A lane's clear in turn: what its leader's step sent it stands before what its own sends. -/
theorem Work.clearLanes_lane (w : Work) (n : LaneId) :
    (allLanes.foldl Work.clearLane w).lane n =
      ((w.lane n).pushAll (((w.leaderDropped n (n - 1)) ++ (w.lane n).dropped).map CurStep.cancel)).cleared := by
  have hnone : ∀ (v : Work) (m k : LaneId), ¬ ((m = 1 ∧ k = 0) ∨ (m = 3 ∧ k = 2)) → m ≠ k →
      (v.clearLane k).lane m = v.lane m := fun v m k hk hne => by
    rw [Work.clearLane_lane_ne v hne, Work.leaderDropped, if_neg hk]; rfl
  have hled : ∀ (v : Work) (m k : LaneId), ((m = 1 ∧ k = 0) ∨ (m = 3 ∧ k = 2)) → v.lane k = w.lane k →
      v.lane m = w.lane m → ((v.clearLane k).clearLane m).lane m =
        ((w.lane m).pushAll ((w.leaderDropped m k ++ (w.lane m).dropped).map CurStep.cancel)).cleared := by
    intro v m k hk hvk hvm
    have hne : m ≠ k := by rcases hk with ⟨rfl, rfl⟩ | ⟨rfl, rfl⟩ <;> decide
    rw [Work.clearLane_lane_self, Work.clearLane_lane_ne v hne, Lane.dropped_pushAll, ← Lane.pushAll_append,
      ← List.map_append, hvm, Work.leaderDropped, hvk]
    rfl
  have hfold : allLanes.foldl Work.clearLane w = (((w.clearLane 0).clearLane 1).clearLane 2).clearLane 3 := rfl
  have hcases : n = 0 ∨ n = 1 ∨ n = 2 ∨ n = 3 := by revert n; decide
  rw [hfold]
  rcases hcases with rfl | rfl | rfl | rfl
  · rw [hnone _ 0 3 (by decide) (by decide), hnone _ 0 2 (by decide) (by decide), hnone _ 0 1 (by decide) (by decide),
      Work.clearLane_lane_self]
    rfl
  · rw [hnone _ 1 3 (by decide) (by decide), hnone _ 1 2 (by decide) (by decide)]
    exact hled w 1 0 (by decide) rfl rfl
  · rw [hnone _ 2 3 (by decide) (by decide), Work.clearLane_lane_self, hnone _ 2 1 (by decide) (by decide),
      hnone _ 2 0 (by decide) (by decide)]
    rfl
  · refine hled _ 3 2 (by decide) ?_ ?_
    · rw [hnone _ 2 1 (by decide) (by decide), hnone _ 2 0 (by decide) (by decide)]
    · rw [hnone _ 3 1 (by decide) (by decide), hnone _ 3 0 (by decide) (by decide)]

theorem Work.sendAll_nodes_chain (ns : List LaneId) (w : Work) (m : UnitMessage) :
    (w.sendAll ns m).nodes = w.nodes ∧ (w.sendAll ns m).chain = w.chain := by
  induction ns generalizing w with
  | nil => exact ⟨rfl, rfl⟩
  | cons n ns ih =>
    obtain ⟨hn, hc⟩ := ih (w.send n m)
    have hsend : (w.send n m).nodes = w.nodes ∧ (w.send n m).chain = w.chain := by
      unfold Work.send; split <;> exact ⟨rfl, rfl⟩
    exact ⟨hn.trans hsend.1, hc.trans hsend.2⟩

theorem Work.clearLane_nodes_chain (w : Work) (n : LaneId) :
    (w.clearLane n).nodes = w.nodes ∧ (w.clearLane n).chain = w.chain := by
  rw [Work.clearLane_eq, Work.onLane_nodes, Work.onLane_chain]
  unfold Work.cancelStep
  split
  · split
    · exact Work.sendAll_nodes_chain _ w _
    · exact ⟨rfl, rfl⟩
  · exact ⟨rfl, rfl⟩

theorem Work.clearLanes_nodes_chain (w : Work) :
    (allLanes.foldl Work.clearLane w).nodes = w.nodes ∧ (allLanes.foldl Work.clearLane w).chain = w.chain := by
  simp only [allLanes, List.foldl_cons, List.foldl_nil, (Work.clearLane_nodes_chain _ _).1,
    (Work.clearLane_nodes_chain _ _).2, and_self]

/-! ### CLEAR at the node map and the chain -/

/-- The marks, the claim order list, the waiting targets and the quiet holds go in every chain state (R203). -/
def Work.clearClaims (w : Work) : Work :=
  { w.onNodes fun x => { x with waiter := none } with
    nodes := { (w.onNodes fun x => { x with waiter := none }).nodes with order := [], lastWinner := 3 }
    chain := { w.chain with waiting := [], holds := [], holdOff := w.chain.holdOff || !w.chain.holds.isEmpty } }

/-- Outside READY the holders, the targets and the CLOSE frames go as well (R41, R43). -/
def Work.clearFrames (w : Work) : Work :=
  { w.onNodes fun x => { x with holder := .none, target := none } with
    chain :=
      { w.chain with
        queue := w.chain.queue.filter fun f => match f with
          | .close _ _ => false
          | .opn _ => true
        shift := w.chain.shift.map fun x => match x.kind with
          | .frame (.close _ _) => { x with kind := .abandoned }
          | _ => x } }

theorem Work.clearFixture_eq (w : Work) :
    w.clearFixture = match w.chain.state with
      | .ready => w.clearClaims.requestOpenAll
      | _ => w.clearClaims.clearFrames := rfl

theorem Work.clearFixture_ready {w : Work} (h : w.chain.state = .ready) :
    w.clearFixture = w.clearClaims.requestOpenAll := by
  rw [Work.clearFixture_eq, h]

theorem Work.clearFixture_other {w : Work} (h : w.chain.state ≠ .ready) :
    w.clearFixture = w.clearClaims.clearFrames := by
  rw [Work.clearFixture_eq]
  cases hs : w.chain.state with
  | ready => exact absurd hs h
  | starting => rfl
  | fault => rfl

theorem Work.requestOpenAll_frame (w : Work) :
    w.requestOpenAll = { w with chain := { w.chain with requests := w.requestOpenAll.chain.requests } } := by
  unfold Work.requestOpenAll; split <;> rfl

/-- In READY an OPEN_ALL is shifting or asked for once CLEAR has asked for one (R58, R61). -/
theorem Work.requestOpenAll_asks {w : Work} (h : w.chain.state = .ready) :
    w.requestOpenAll.chain.shiftingOpenAll = true ∨ w.requestOpenAll.chain.requests ≠ [] := by
  unfold Work.requestOpenAll
  split
  · exact .inr (by simp)
  · next hn =>
    by_cases hs : w.chain.shiftingOpenAll = true
    · exact .inl hs
    · exact .inr fun hr => hn ⟨h, by simpa using hs, hr⟩

/-- What CLEAR leaves of the chain and of the claim order list in every chain state (R203). -/
theorem Work.clearFixture_chain (w : Work) :
    w.clearFixture.lanes = w.lanes ∧ w.clearFixture.nodes.order = [] ∧ w.clearFixture.nodes.lastWinner = 3 ∧
      w.clearFixture.chain.waiting = [] ∧ w.clearFixture.chain.holds = [] ∧
      w.clearFixture.chain.holdOff = (w.chain.holdOff || !w.chain.holds.isEmpty) ∧
      w.clearFixture.chain.state = w.chain.state ∧ w.clearFixture.chain.inflight = w.chain.inflight := by
  by_cases h : w.chain.state = .ready
  · rw [Work.clearFixture_ready h, Work.requestOpenAll_frame]
    exact ⟨rfl, rfl, rfl, rfl, rfl, rfl, rfl, rfl⟩
  · rw [Work.clearFixture_other h]
    exact ⟨rfl, rfl, rfl, rfl, rfl, rfl, rfl, rfl⟩

theorem Work.node_clearClaims {w : Work} (h : entriesWf w.nodes.entries) (m : Nat) :
    w.clearClaims.node m = { w.node m with waiter := none } :=
  Work.node_onNodes h (f := fun x => { x with waiter := none }) rfl m

theorem Work.node_clearFixture {w : Work} (h : entriesWf w.nodes.entries) (m : Nat) :
    w.clearFixture.node m =
      if w.chain.state = .ready then { w.node m with waiter := none }
      else { w.node m with waiter := none, holder := .none, target := none } := by
  by_cases hs : w.chain.state = .ready
  · rw [Work.clearFixture_ready hs, Work.requestOpenAll_frame, if_pos hs]
    exact Work.node_clearClaims h m
  · have hwf : entriesWf w.clearClaims.nodes.entries := entriesWf_mapEntries h fun x => { x with waiter := none }
    rw [Work.clearFixture_other hs, if_neg hs]
    refine (Work.node_onNodes hwf (f := fun x => { x with holder := .none, target := none }) rfl m).trans ?_
    rw [Work.node_clearClaims h]

/-- The part as CLEAR leaves it, its reply apart. -/
def Work.clearedWork (w : Work) : Work :=
  { (allLanes.foldl Work.clearLane w).clearFixture with
    tokens := Vector.replicate 32 none, results := [], lastDelivering := 3, notices := Vector.replicate 6 0
    wake := false, freed := false }

theorem exec_clear (s : State) : exec .clear s = .next { s with work := s.work.clearedWork.reply 0x14 .ok [] } := rfl

/-- Settles O60: the lanes in turn with what each sends, then the node map and the chain by the chain's state. -/
theorem clearReturnsTheWorkToItsStart : Obligations.ClearReturnsTheWorkToItsStart := by
  intro s dropped led
  obtain ⟨z, hz⟩ : ∃ z : Work, z = allLanes.foldl Work.clearLane s.work := ⟨_, rfl⟩
  obtain ⟨hnodes, hchain⟩ := s.work.clearLanes_nodes_chain
  rw [← hz] at hnodes hchain
  obtain ⟨hlanes, horder, hwinner, hwaiting, hholds, hoff, hstate, hinflight⟩ := z.clearFixture_chain
  have hdropped : ∀ k, dropped k = (s.work.lane k).dropped := fun k => by
    cases hc : (s.work.lane k).cur <;> simp only [dropped, Lane.dropped, pastClaim_iff, hc]
  have hled : ∀ n, led n = s.work.leaderDropped n (n - 1) := fun n => by
    simp only [led, hdropped, Work.leaderDropped]
    have hcases : n = 0 ∨ n = 1 ∨ n = 2 ∨ n = 3 := by revert n; decide
    rcases hcases with rfl | rfl | rfl | rfl <;> rfl
  have hclearedLanes : s.work.clearedWork.lanes = z.lanes := by unfold Work.clearedWork; rw [← hz]; exact hlanes
  have hclearedNodes : s.work.clearedWork.nodes = z.clearFixture.nodes := by unfold Work.clearedWork; rw [← hz]
  have hclearedChain : s.work.clearedWork.chain = z.clearFixture.chain := by unfold Work.clearedWork; rw [← hz]
  have hlane : ∀ n, s.work.clearedWork.lane n =
      ((s.work.lane n).pushAll ((led n ++ dropped n).map CurStep.cancel)).cleared := fun n => by
    rw [hled, hdropped, ← Work.clearLanes_lane, ← hz, Work.lane, hclearedLanes]
    rfl
  have hznode : ∀ m, z.node m = s.work.node m := Work.node_congr hnodes
  rw [hchain] at hoff hstate hinflight
  refine ⟨s.work.clearedWork, exec_clear s, fun n => ?_, fun k => ?_, rfl, rfl, fun k => ?_, ?_, ?_, ?_, ?_, ?_, ?_, ?_,
    fun hwf => ?_, fun hne => ?_, fun hready => ?_⟩
  · intro l t
    have ht : t = _ := hlane n
    refine ⟨?_, ?_, fun hlen => ?_⟩
    · rw [ht, Lane.pushAll_eq]; rfl
    · rw [ht]; exact Lane.prefix_tx_pushAll _ _
    · rw [ht]; exact Lane.tx_pushAll hlen _
  · simp [Work.clearedWork]
  · simp [Work.clearedWork]
  · rw [hclearedNodes, horder]
  · rw [hclearedNodes, hwinner]
  · rw [hclearedChain, hwaiting]
  · rw [hclearedChain, hholds]
  · rw [hclearedChain, hoff]; simp
  · rw [hclearedChain, hstate]
  · rw [hclearedChain, hinflight]
  · have hnode : ∀ m, s.work.clearedWork.node m =
        if s.work.chain.state = .ready then { s.work.node m with waiter := none }
        else { s.work.node m with waiter := none, holder := .none, target := none } := fun m => by
      rw [Work.node_congr hclearedNodes, Work.node_clearFixture (by rw [hnodes]; exact hwf), hznode, hchain]
    refine ⟨fun m => ?_, fun hne m => ?_⟩
    · rw [hnode]; split <;> exact ⟨rfl, rfl, rfl⟩
    · rw [hnode, if_neg hne]; exact ⟨rfl, rfl⟩
  · have hfix := Work.clearFixture_other (w := z) (by rw [hchain]; exact hne)
    rw [hclearedChain, hfix]
    refine ⟨fun f hf => ?_, congrArg (·.requests) hchain⟩
    obtain ⟨_, hopn⟩ := List.mem_filter.1 hf
    cases f with
    | close n b => simp at hopn
    | opn m => exact ⟨m, rfl⟩
  · have hzr : z.chain.state = .ready := by rw [hchain]; exact hready
    rw [hclearedChain, Work.clearFixture_ready hzr]
    exact Work.requestOpenAll_asks hzr

end Sys2Proof.Machine
end

section
/-! PROOFS, family 02_the_node_map.md: the safety abort in every part: which lanes it leaves able to claim, and what it
leaves of the chain, the causes and the node map. -/

namespace Sys2Proof.Machine

/-! ### What edits leave -/

/-- What a chain of edits leaves of the part it started from: requests, port and the SAFETY source stay, no frame or
target joins a queue, and in the canonical form every node keeps its phase and bus. -/
structure Work.EditLeaves (w v : Work) : Prop where
  requests : v.chain.requests = w.chain.requests
  port : v.port = w.port
  safety : v.notices[0] = w.notices[0]
  queue : ∀ f ∈ v.chain.queue, f ∈ w.chain.queue
  waiting : ∀ p ∈ v.chain.waiting, p ∈ w.chain.waiting
  wake : w.wake = true → v.wake = true
  nodes : entriesWf w.nodes.entries →
    entriesWf v.nodes.entries ∧ ∀ m, (v.node m).phase = (w.node m).phase ∧ (v.node m).bus = (w.node m).bus

theorem Work.EditLeaves.refl (w : Work) : w.EditLeaves w :=
  ⟨rfl, rfl, rfl, fun _ h => h, fun _ h => h, id, fun h => ⟨h, fun _ => ⟨rfl, rfl⟩⟩⟩

theorem Work.EditLeaves.trans {u v w : Work} (h : u.EditLeaves v) (k : v.EditLeaves w) : u.EditLeaves w := by
  refine ⟨k.requests.trans h.requests, k.port.trans h.port, k.safety.trans h.safety, fun f hf => h.queue f (k.queue f hf),
    fun p hp => h.waiting p (k.waiting p hp), fun hw => k.wake (h.wake hw), fun hu => ?_⟩
  obtain ⟨hv, hvn⟩ := h.nodes hu
  obtain ⟨hw, hwn⟩ := k.nodes hv
  exact ⟨hw, fun m => ⟨(hwn m).1.trans (hvn m).1, (hwn m).2.trans (hvn m).2⟩⟩

theorem Work.Edit.leaves {N : List (Nat × Fin 20) → Prop} {w v : Work} (h : w.Edit N v) : w.EditLeaves v := by
  cases h with
  | raise c hc =>
    have h0 : (w.raise c).notices[0] = w.notices[0] :=
      Vector.getElem_set_ne c.source.isLt (by decide) fun h => hc (Fin.ext h)
    exact ⟨rfl, rfl, h0, fun _ h => h, fun _ h => h, id, fun h => ⟨h, fun _ => ⟨rfl, rfl⟩⟩⟩
  | nodes m h => exact ⟨rfl, rfl, rfl, fun _ h => h, fun _ h => h, id, h⟩
  | withdraw f =>
    exact ⟨rfl, rfl, rfl, fun _ h => (List.mem_filter.1 h).1, fun _ h => h, fun _ => rfl, fun h => ⟨h, fun _ => ⟨rfl, rfl⟩⟩⟩
  | dropWaiting n =>
    exact ⟨rfl, rfl, rfl, fun _ h => h, fun _ h => (List.mem_filter.1 h).1, id, fun h => ⟨h, fun _ => ⟨rfl, rfl⟩⟩⟩
  | wake => exact ⟨rfl, rfl, rfl, fun _ h => h, fun _ h => h, fun _ => rfl, fun h => ⟨h, fun _ => ⟨rfl, rfl⟩⟩⟩
  | _ => exact ⟨rfl, rfl, rfl, fun _ h => h, fun _ h => h, id, fun h => ⟨h, fun _ => ⟨rfl, rfl⟩⟩⟩

theorem Work.Edits.leaves {w v : Work} (h : w.Edits (fun _ => True) v) : w.EditLeaves v := by
  have hchain := h fun _ _ _ => trivial
  clear h
  induction hchain with
  | refl => exact Work.EditLeaves.refl w
  | tail _ hstep ih => exact ih.trans hstep.leaves

/-! ### The parts of a safety abort -/

/-- The lanes after the safety abort, before any record is offered (R183). -/
def Work.abortLanes (w : Work) (e : Env) : Work := allLanes.foldl (fun w n => w.abortLane e n) w

/-- The records of the aborted steps are offered (R184, R185). -/
def Work.offerAll (w : Work) (e : Env) : Work := allLanes.foldl (fun w n => w.offer e n) w

theorem Work.abortLanes_edits (w : Work) (e : Env) : w.Edits (fun _ => True) (w.abortLanes e) :=
  Editing.foldl _ (fun v n => Editing.abortLane v e n) allLanes w

theorem Work.abortLanes_keeps (w : Work) (e : Env) : w.Keeps (w.abortLanes e) :=
  Keeping.foldl _ (fun v n => Keeping.abortLane v e n) allLanes w

/-- In FAULT a safety abort asks for no OPEN_ALL of its own (R58). -/
theorem Work.safetyAbort_fault {w : Work} (h : w.chain.state = .fault) (e : Env) (c : Cause) :
    w.safetyAbort e c = ((w.raise c).abortLanes e).offerAll e := by
  have hstate : ((w.raise c).abortLanes e).chain.state = .fault := ((w.raise c).abortLanes_keeps e).state.trans h
  have hask : ((w.raise c).abortLanes e).requestOpenAll = (w.raise c).abortLanes e :=
    if_neg fun hr => absurd (hstate.symm.trans hr.1) (by decide)
  exact congrArg (fun v : Work => v.offerAll e) hask

theorem Work.safetyAbort_leaves {w : Work} (h : w.chain.state = .fault) (e : Env) (c : Cause) :
    (w.raise c).EditLeaves (w.safetyAbort e c) := by
  rw [Work.safetyAbort_fault h]
  exact (Editing.trans (Work.abortLanes_edits _ e) (Editing.foldl _ (fun v n => Editing.offer v e n) allLanes _)).leaves

/-! ### No lane can claim after a safety abort -/

/-- The step is kept at the head or stands in DELIVER. -/
def CurStep.halts (c : CurStep) : Prop := c.phase = .none ∨ c.phase = .deliver

/-- Every step in progress is kept or stands in DELIVER. -/
def Work.Halted (w : Work) : Prop := ∀ (n : LaneId) (c : CurStep), (w.lane n).cur = some c → c.halts

theorem Work.onLane_cur (w : Work) (n m : LaneId) (f : Lane → Lane) (h : ∀ l, (f l).cur = l.cur) :
    ((w.onLane n f).lane m).cur = (w.lane m).cur := by
  by_cases hm : m = n
  · subst hm; rw [Work.lane_onLane, h]
  · rw [Work.lane_onLane_ne _ _ hm]

theorem Work.driveAll_cur (ns : List LaneId) (w : Work) (e : Env) (src gate : Bool) (m : LaneId) :
    ((w.driveAll e ns src gate).lane m).cur = (w.lane m).cur := by
  induction ns generalizing w with
  | nil => rfl
  | cons n ns ih =>
    refine (ih (w.drive e n src gate)).trans ?_
    unfold Work.drive; split
    · exact w.onLane_cur n m _ fun _ => rfl
    · rfl

/-- C1 and C2 of a follower stopped (R130, R144). -/
def Lane.pairStopped (l : Lane) : Lane := { l with c1 := l.c1.stop, c2 := l.c2.stop }

theorem Work.stopPair_eq (w : Work) (n : LaneId) : w.stopPair n = w.onLane n Lane.pairStopped := rfl

theorem Work.stopStep_cur (w : Work) (n : LaneId) (r : StepRecord) (m : LaneId) :
    ((w.stopStep n r).lane m).cur = (w.lane m).cur := by
  unfold Work.stopStep; split
  · exact ((w.stopAll n).onLane_cur _ m Lane.pairStopped fun _ => rfl).trans (w.onLane_cur n m _ fun _ => rfl)
  · exact w.onLane_cur n m _ fun _ => rfl

theorem Work.cutOff_cur (w : Work) (e : Env) (n : LaneId) (c : CurStep) (m : LaneId) :
    ((w.cutOff e n c).lane m).cur = (w.lane m).cur :=
  (Work.stopStep_cur _ n _ m).trans ((Work.driveAll_cur _ _ e _ _ m).trans (Work.Still.sendAll_cur _ w _ m))

theorem Work.unfreeze_cur (w : Work) (n : LaneId) (r : StepRecord) (m : LaneId) :
    ((w.unfreeze n r).lane m).cur = (w.lane m).cur := by
  unfold Work.unfreeze; split
  · exact w.onLane_cur _ m _ fun _ => rfl
  · rfl

/-- A lane that a safety abort holds (R183). -/
def Lane.hold (l : Lane) : Lane := { l with run := .held, remembered := none }

/-- A lane with no step under a safety abort: held unless STOPPED (R183). -/
def Lane.holdIdle (l : Lane) : Lane := if l.run = .stopped then l else l.hold

/-- A lane that goes HELD at its delivery (R183). -/
def Lane.holdNext (l : Lane) : Lane := { l with pendingHold := true }

theorem Lane.holdIdle_cur (l : Lane) : l.holdIdle.cur = l.cur := by unfold Lane.holdIdle; split <;> rfl

/-- Where a step that a safety abort keeps resumes (R183). -/
def CurStep.keepPoint (c : CurStep) : ResumePoint :=
  if c.step.flags.fused then ResumePoint.fuseWait
  else match c.phase with
    | .fuseWait => .fuseWait
    | .tokenWait => .tokenWait
    | .claim => .claim
    | _ => c.resume.getD .claim

section AbortLane

variable {w : Work} {e : Env} {n : LaneId} {c : CurStep}

theorem Work.abortLane_none (hc : (w.lane n).cur = none) : w.abortLane e n = w.onLane n Lane.holdIdle := by
  by_cases h : (w.lane n).run = .stopped <;> simp [Work.abortLane, hc, h, Work.onLane, Lane.holdIdle, Lane.hold]

theorem Work.abortLane_past (hc : (w.lane n).cur = some c) (hp : c.phase.pastClaim = true) :
    w.abortLane e n = (w.abortStep e n c).onLane n Lane.holdNext := by
  simp only [Work.abortLane, hc, hp, if_true]
  rfl

theorem Work.abortLane_deliver (hc : (w.lane n).cur = some c) (hp : c.phase = .deliver) :
    w.abortLane e n = w.onLane n Lane.holdNext := by
  simp only [Work.abortLane, hc, hp, if_true]
  rfl

theorem Work.abortLane_kept (hc : (w.lane n).cur = some c) (hp : c.phase.pastClaim = false) (hd : c.phase ≠ .deliver) :
    w.abortLane e n = ((w.keepStep n c c.keepPoint).unfreeze n c.step).onLane n Lane.hold := by
  simp only [Work.abortLane, hc, hp, Bool.false_eq_true, if_false, if_neg hd]
  rfl

end AbortLane

theorem Work.keepStep_lane (w : Work) (n : LaneId) (c : CurStep) (p : ResumePoint) :
    (w.keepStep n c p).lane n = (w.lane n).kept c p := by
  rw [Work.keepStep_eq, Work.leaveClaim_lane, Work.lane_onLane]

theorem Work.keepStep_lane_ne (w : Work) {n m : LaneId} (c : CurStep) (p : ResumePoint) (h : m ≠ n) :
    (w.keepStep n c p).lane m = w.lane m := by
  rw [Work.keepStep_eq, Work.leaveClaim_lane, Work.lane_onLane_ne _ _ h]

/-- The safety abort at a lane changes the step of that lane alone, which is then kept or stands in DELIVER. -/
theorem Work.abortLane_cur (w : Work) (e : Env) (n : LaneId) :
    (∀ m, m ≠ n → ((w.abortLane e n).lane m).cur = (w.lane m).cur) ∧
      ∀ c, ((w.abortLane e n).lane n).cur = some c → c.halts := by
  cases hc : (w.lane n).cur with
  | none =>
    rw [Work.abortLane_none hc]
    refine ⟨fun m _ => w.onLane_cur n m _ Lane.holdIdle_cur, fun c h => ?_⟩
    rw [w.onLane_cur n n _ Lane.holdIdle_cur, hc] at h
    simp at h
  | some c =>
    by_cases hp : c.phase.pastClaim = true
    · rw [Work.abortLane_past hc hp]
      refine ⟨fun m hm => ?_, fun d hd => ?_⟩
      · rw [Work.onLane_cur _ n m Lane.holdNext fun _ => rfl, Work.abortStep_lane_ne w e c hm, Work.cutOff_cur]
      · rw [Work.onLane_cur _ n n Lane.holdNext fun _ => rfl, Work.abortStep_lane] at hd
        rw [← Option.some.inj hd]
        exact .inr rfl
    · by_cases hd : c.phase = .deliver
      · rw [Work.abortLane_deliver hc hd]
        refine ⟨fun m _ => w.onLane_cur n m Lane.holdNext fun _ => rfl, fun d h => ?_⟩
        rw [w.onLane_cur n n Lane.holdNext fun _ => rfl, hc] at h
        rw [← Option.some.inj h]
        exact .inr hd
      · rw [Work.abortLane_kept hc (by simpa using hp) hd]
        refine ⟨fun m hm => ?_, fun d h => ?_⟩
        · rw [Work.onLane_cur _ n m Lane.hold fun _ => rfl, Work.unfreeze_cur, Work.keepStep_lane_ne w c _ hm]
        · rw [Work.onLane_cur _ n n Lane.hold fun _ => rfl, Work.unfreeze_cur, Work.keepStep_lane] at h
          rw [← Option.some.inj h]
          exact .inl rfl

theorem mem_allLanes : ∀ n : LaneId, n ∈ allLanes := by decide

theorem Work.abortLanes_halted (w : Work) (e : Env) : (w.abortLanes e).Halted := by
  have hfold : ∀ (ns : List LaneId) (v : Work), (∀ n c, (v.lane n).cur = some c → n ∈ ns ∨ c.halts) →
      (ns.foldl (fun w n => w.abortLane e n) v).Halted := by
    intro ns
    induction ns with
    | nil => exact fun v h n c hc => (h n c hc).resolve_left (by simp)
    | cons k ns ih =>
      intro v h
      obtain ⟨hother, hself⟩ := v.abortLane_cur e k
      refine ih (v.abortLane e k) fun n c hc => ?_
      by_cases hn : n = k
      · subst hn; exact .inr (hself c hc)
      · rw [hother n hn] at hc
        exact (h n c hc).imp_left fun hm => (List.mem_cons.1 hm).resolve_left hn
  exact hfold allLanes w fun n c _ => .inl (mem_allLanes n)

/-! ### Delivery in a part in which no step can go on -/

theorem leaderOf_ne : ∀ f : LaneId, leaderOf f ≠ some f := by decide

/-- With no leader in FUSE_WAIT, a follower that enters FOLLOWING starts nothing (R134). -/
theorem Work.tryFollow_halted {w : Work} (h : w.Halted) (e : Env) (f : LaneId) :
    w.tryFollow e f = w ∨ w.tryFollow e f = w.setLane f { w.lane f with run := .following, remembered := some (w.lane f).run } := by
  unfold Work.tryFollow; dsimp only; split
  · next k hk =>
    split
    · right
      have hne : k ≠ f := fun he => leaderOf_ne f (he ▸ hk)
      rw [Work.lane_setLane_ne _ _ hne]
      split
      · next c hc =>
        rcases h k c hc with hp | hp <;> rw [hp] <;> rfl
      · rfl
    · exact .inl rfl
  · exact .inl rfl

theorem Lane.afterDelivery_cur (l : Lane) (halts : Bool) : (l.afterDelivery halts).cur = l.cur := by
  unfold Lane.afterDelivery; split
  · rfl
  · split
    · rfl
    · split <;> rfl

theorem Work.endPair_cur (w : Work) (n : LaneId) (r : StepRecord) (m : LaneId) :
    ((w.endPair n r).lane m).cur = (w.lane m).cur := by
  unfold Work.endPair; split
  · exact w.onLane_cur _ m _ fun l => by split <;> rfl
  · rfl

/-- A delivery up to the freeze that another lane's step may have on it. -/
def Work.delivery (w : Work) (e : Env) (n : LaneId) (c : CurStep) (r : ResultRecord) : Work :=
  let w := w.enterResult n r
  let w := if c.step.origin = .unit then w.send n (.done c.step.tag r.verdict) else w
  let before := (w.lane n).queue.length + 1
  let w := ((w.setCur n none).noteRemoval e n before (before - 1)).raiseVerdict (e.cfg n) n r.verdict
  (w.onLane n fun l => l.afterDelivery (verdictHalts (e.cfg n) r.verdict)).endPair n c.step

theorem Work.deliver_eq (w : Work) (e : Env) (n : LaneId) (c : CurStep) (r : ResultRecord) :
    w.deliver e n c r = (w.delivery e n c r).tryFollow e n := rfl

theorem Work.delivery_cur (w : Work) (e : Env) (n : LaneId) (c : CurStep) (r : ResultRecord) (m : LaneId) :
    ((w.delivery e n c r).lane m).cur = if m = n then none else (w.lane m).cur := by
  obtain ⟨k₁, hentered⟩ := w.enterResult_notices n r
  have hsent : ∀ v : Work, ((if c.step.origin = .unit then v.send n (.done c.step.tag r.verdict) else v).lane m).cur =
      (v.lane m).cur := fun v => by
    split
    · exact Work.Still.send_cur v n _ m
    · rfl
  have hset : ∀ v : Work, ((v.setCur n none).lane m).cur = if m = n then none else (v.lane m).cur := fun v => by
    by_cases hm : m = n
    · subst hm; simp
    · rw [Work.lane_setCur_ne _ _ hm, if_neg hm]
  have hraised : ∀ (v : Work), ((v.raiseVerdict (e.cfg n) n r.verdict).lane m) = v.lane m := fun v => by
    obtain ⟨k, hk⟩ := v.raiseVerdict_notices (e.cfg n) n r.verdict
    rw [hk]; rfl
  unfold Work.delivery
  rw [Work.endPair_cur, Work.onLane_cur _ n m _ fun l => l.afterDelivery_cur _, hraised, Work.noteRemoval_lane, hset, hsent,
    hentered]
  rfl

theorem Work.Halted.setLane {w : Work} (h : w.Halted) {f : LaneId} {l : Lane} (hl : l.cur = (w.lane f).cur) :
    (w.setLane f l).Halted := by
  intro n c hc
  by_cases hn : n = f
  · subst hn; rw [Work.lane_setLane, hl] at hc; exact h n c hc
  · rw [Work.lane_setLane_ne _ _ hn] at hc; exact h n c hc

theorem Work.Halted.delivery {w : Work} (h : w.Halted) (e : Env) (n : LaneId) (c : CurStep) (r : ResultRecord) :
    (w.delivery e n c r).Halted := by
  intro m d hd
  rw [Work.delivery_cur] at hd
  split at hd
  · simp at hd
  · exact h m d hd

theorem Work.Halted.offer {w : Work} (h : w.Halted) (e : Env) (n : LaneId) : (w.offer e n).Halted := by
  unfold Work.offer
  split
  · split
    · split
      · rw [Work.deliver_eq]
        rcases Work.tryFollow_halted (h.delivery e n _ _) e n with hf | hf <;> rw [hf]
        · exact h.delivery e n _ _
        · exact (h.delivery e n _ _).setLane rfl
      · exact h
    · exact h
  · exact h

theorem Work.Halted.offerAll {w : Work} (h : w.Halted) (e : Env) : (w.offerAll e).Halted := by
  unfold Work.offerAll
  generalize allLanes = ns
  induction ns generalizing w with
  | nil => exact h
  | cons n ns ih => exact ih (h.offer e n)

theorem Work.safetyAbort_halted {w : Work} (h : w.chain.state = .fault) (e : Env) (c : Cause) :
    (w.safetyAbort e c).Halted := by
  rw [Work.safetyAbort_fault h]
  exact (Work.abortLanes_halted _ e).offerAll e

/-! ### The end of an event in which no lane can claim -/

theorem Work.tryClaim_halted {w : Work} (h : w.Halted) (e : Env) (a : LaneId) : w.tryClaim e a = (w, false) := by
  cases hc : (w.lane a).cur with
  | none => simp [Work.tryClaim, hc]
  | some c =>
    refine Work.tryClaim_idle e hc fun hcl => ?_
    rcases h a c hc with hp | hp <;> rw [hp] at hcl <;> simp at hcl

theorem Work.arbitrate_halted {w : Work} (h : w.Halted) (e : Env) (k : Nat) : Work.arbitrate e k w = w := by
  cases k with
  | zero => rfl
  | succ k =>
    have hpass : w.pass e = (w, false) := by simp [Work.pass, lanesAfter, Work.tryClaim_halted h]
    rw [Work.arbitrate, hpass]

/-- With no lane that can claim, the end of an event serves the slots alone. -/
theorem Work.finish_halted {w : Work} (h : w.Halted) (hw : w.wake = true) (e : Env) :
    w.finish e = { ({ w with wake := false, freed := false } : Work).serveSlots with wake := false, freed := false } := by
  have hz : ({ w with wake := false, freed := false } : Work).Halted := h
  have hs : ({ w with wake := false, freed := false } : Work).serveSlots.Halted := fun n c hc =>
    h n c (by rw [Work.serveSlots_lane] at hc; exact hc)
  by_cases hf : w.freed = true
  · simp only [Work.finish, hw, hf, if_true, Work.arbitrate_halted hs]
  · simp only [Work.finish, hw, hf, if_true, if_false, Bool.false_eq_true, Work.arbitrate_halted hz]

end Sys2Proof.Machine
end

section
/-! PROOFS, family 02_the_node_map.md: what a chain fault's event leaves in every part, and after an OPEN_ALL. -/

namespace Sys2Proof.Machine

/-! ### The event of a chain fault -/

/-- The end of a chain fault's event: the safety abort, the reply of a CHAIN_RESET, and the slots handed out. -/
def Work.faultEvent (w : Work) (e : Env) (p : Port) : Work :=
  ({ w.safetyAbort e .chainFault with port := p } : Work).finish e

theorem Work.node_serveSlots (w : Work) (m : Nat) : ∃ d, w.serveSlots.node m = { w.node m with due := d } := by
  have hnode := Work.node_foldl_openDue (w.moveWaiting.dueNodes.take w.moveWaiting.chain.freeSlots) w.moveWaiting m
  by_cases hm : m ∈ w.moveWaiting.dueNodes.take w.moveWaiting.chain.freeSlots
  · exact ⟨false, hnode.trans (if_pos hm)⟩
  · exact ⟨(w.node m).due, hnode.trans (if_neg hm)⟩

/-- What the end of an event in which no lane can claim leaves, and where its frames come from. -/
structure Work.ServedOnly (v u : Work) : Prop where
  state : u.chain.state = v.chain.state
  requests : u.chain.requests = v.chain.requests
  shift : u.chain.shift = v.chain.shift
  inflight : u.chain.inflight = v.chain.inflight
  holds : u.chain.holds = v.chain.holds
  notices : u.notices = v.notices
  results : u.results = v.results
  lane : ∀ n, u.lane n = v.lane n
  node : ∀ m, ∃ d, u.node m = { v.node m with due := d }
  queue : entriesWf v.nodes.entries → ∀ f ∈ u.chain.queue,
    f ∈ v.chain.queue ∨ (∃ q ∈ v.chain.waiting, f = .close q.1 q.2) ∨ ∃ m, f = .opn m ∧ (v.node m).phase = .closed

theorem Work.finish_servedOnly {v : Work} (h : v.Halted) (hw : v.wake = true) (p : Port) (e : Env) :
    v.ServedOnly (({ v with port := p } : Work).finish e) ∧ (({ v with port := p } : Work).finish e).port = p := by
  have heq := Work.finish_halted (w := { v with port := p }) h hw e
  obtain ⟨y, hy⟩ : ∃ y : Work, y = { v with port := p, wake := false, freed := false } := ⟨_, rfl⟩
  have hserved : ({ v with port := p } : Work).finish e = { y.serveSlots with wake := false, freed := false } := by
    rw [heq, hy]
  have hport : y.serveSlots.port = p := by rw [Work.serveSlots_eq, hy]
  rw [hserved]
  refine ⟨⟨?_, ?_, ?_, ?_, ?_, ?_, ?_, ?_, ?_, ?_⟩, hport⟩
  · rw [Work.serveSlots_eq, hy]
  · rw [Work.serveSlots_eq, hy]
  · rw [Work.serveSlots_eq, hy]
  · rw [Work.serveSlots_eq, hy]
  · rw [Work.serveSlots_eq, hy]
  · rw [Work.serveSlots_eq, hy]
  · rw [Work.serveSlots_eq, hy]
  · intro n
    have hlane : y.serveSlots.lane n = y.lane n := y.serveSlots_lane n
    rw [hy] at hlane
    subst hy
    exact hlane
  · intro m
    obtain ⟨d, hd⟩ := y.node_serveSlots m
    subst hy
    exact ⟨d, hd⟩
  · intro hwf f hf
    rw [Work.serveSlots_eq] at hf
    subst hy
    rcases List.mem_append.1 hf with hf | hf
    · rcases List.mem_append.1 hf with hf | hf
      · exact .inl hf
      · obtain ⟨q, hq, rfl⟩ := List.mem_map.1 hf
        exact .inr (.inl ⟨q, List.mem_of_mem_take hq, rfl⟩)
    · obtain ⟨m, hm, rfl⟩ := List.mem_map.1 hf
      have hopen : (v.node m).wantsOpen = true := (Work.mem_dueNodes (w := { v with port := p, wake := false, freed := false }) hwf m).1 (List.mem_of_mem_take hm)
      simp only [NodeEntry.wantsOpen, Bool.and_eq_true, decide_eq_true_eq] at hopen
      exact .inr (.inr ⟨m, rfl, hopen.2⟩)

theorem Work.ServedOnly.keeps {v u : Work} (h : v.ServedOnly u) (m : Nat) :
    (u.node m).phase = (v.node m).phase ∧ (u.node m).bus = (v.node m).bus ∧ (u.node m).holder = (v.node m).holder := by
  obtain ⟨d, hd⟩ := h.node m
  rw [hd]
  exact ⟨rfl, rfl, rfl⟩

section Fault

variable {w : Work} (e : Env) (p : Port)

theorem Work.faultEvent_served (hs : w.chain.state = .fault) (hw : w.wake = true) :
    (w.safetyAbort e .chainFault).ServedOnly (w.faultEvent e p) ∧ (w.faultEvent e p).port = p :=
  Work.finish_servedOnly (Work.safetyAbort_halted hs e .chainFault) ((Work.safetyAbort_leaves hs e .chainFault).wake hw) p e

theorem Work.raise_chainFault_safety (w : Work) : (w.raise .chainFault).notices[0] = w.notices[0] ||| 8 :=
  Vector.getElem_set_self (by decide)

/-- What stands of the chain, the causes, the port and the phases after a chain fault's event, in every part. -/
theorem Work.faultEvent_leaves (hs : w.chain.state = .fault) (hw : w.wake = true) (hshift : w.chain.shift = none) :
    (w.faultEvent e p).chain.state = .fault ∧ (w.faultEvent e p).chain.requests = w.chain.requests ∧
      (w.faultEvent e p).chain.shift = none ∧ (w.faultEvent e p).chain.inflight = w.chain.inflight ∧
      (w.faultEvent e p).notices[0] = w.notices[0] ||| 8 ∧ (w.faultEvent e p).port = p := by
  obtain ⟨hserved, hport⟩ := Work.faultEvent_served e p hs hw
  have hl := Work.safetyAbort_leaves hs e .chainFault
  have hk := Keeping.safetyAbort w e .chainFault
  have hshift' : (w.safetyAbort e .chainFault).chain.shift = none := by
    rcases hk.shift with h | ⟨f, t, hf, _⟩
    · rw [h, hshift]
    · rw [hshift] at hf; simp at hf
  have hnotices : (w.faultEvent e p).notices[0] = w.notices[0] ||| 8 := by
    rw [hserved.notices, hl.safety, w.raise_chainFault_safety]
  exact ⟨hserved.state.trans (hk.state.trans hs), hserved.requests.trans hl.requests, hserved.shift.trans hshift',
    hserved.inflight.trans hk.inflight, hnotices, hport⟩

theorem Work.faultEvent_nodes (hs : w.chain.state = .fault) (hw : w.wake = true) (hwf : entriesWf w.nodes.entries)
    (m : Nat) :
    ((w.faultEvent e p).node m).phase = (w.node m).phase ∧ ((w.faultEvent e p).node m).bus = (w.node m).bus := by
  obtain ⟨_, hn⟩ := (Work.safetyAbort_leaves hs e .chainFault).nodes hwf
  obtain ⟨hphase, hbus, _⟩ := (Work.faultEvent_served e p hs hw).1.keeps m
  exact ⟨hphase.trans (hn m).1, hbus.trans (hn m).2⟩

/-- A frame in the queue at the end stood there before, or is that of a waiting target or of a CLOSED node. -/
theorem Work.faultEvent_queue (hs : w.chain.state = .fault) (hw : w.wake = true) (hwf : entriesWf w.nodes.entries)
    {f : Frame} (hf : f ∈ (w.faultEvent e p).chain.queue) :
    f ∈ w.chain.queue ∨ (∃ q ∈ w.chain.waiting, f = .close q.1 q.2) ∨
      ∃ m, f = .opn m ∧ (w.node m).phase = .closed := by
  have hl := Work.safetyAbort_leaves hs e .chainFault
  obtain ⟨hwf', hn⟩ := hl.nodes hwf
  rcases (Work.faultEvent_served e p hs hw).1.queue hwf' f hf with h | ⟨q, hq, hqf⟩ | ⟨m, hm, hphase⟩
  · exact .inl (hl.queue f h)
  · exact .inr (.inl ⟨q, hl.waiting q hq, hqf⟩)
  · exact .inr (.inr ⟨m, hm, (hn m).1.symm.trans hphase⟩)

end Fault

/-! ### After an OPEN_ALL nothing is left to release -/

/-- No entry has a holder or a waiter mark. -/
def NodeMap.bare (m : NodeMap) : Prop := ∀ p ∈ m.entries, p.2.holder = .none ∧ p.2.waiter = none

/-- The entries and the linger list stay. -/
def Work.SameMap (w v : Work) : Prop := v.nodes.entries = w.nodes.entries ∧ v.nodes.linger = w.nodes.linger

theorem Work.SameMap.trans {u v w : Work} (h : u.SameMap v) (k : v.SameMap w) : u.SameMap w :=
  ⟨k.1.trans h.1, k.2.trans h.2⟩

theorem Work.SameMap.of_nodes {w v : Work} (h : v.nodes = w.nodes) : w.SameMap v := by rw [Work.SameMap, h]; exact ⟨rfl, rfl⟩

theorem Work.SameMap.bare {w v : Work} (h : w.SameMap v) (hb : w.nodes.bare) : v.nodes.bare := by
  unfold NodeMap.bare; rw [h.1]; exact hb

theorem Work.leaveClaim_sameMap {w : Work} (hb : w.nodes.bare) (a : LaneId) : w.SameMap (w.leaveClaim a) := by
  have hnone : (w.nodes.entries.any fun p => decide (p.2.waiter = some a)) = false := by
    rw [List.any_eq_false]
    intro p hp
    simp [(hb p hp).2]
  simp only [Work.leaveClaim, Work.clearMarks, hnone, Bool.false_eq_true, if_false]
  exact ⟨rfl, rfl⟩

theorem Work.releaseStep_bare {w : Work} (hb : w.nodes.bare) (e : Env) (n : LaneId) (c : CurStep) :
    w.releaseStep e n c = w := by
  have hholder : ∀ m, (w.node m).holder = .none := fun m => by
    by_cases hm : w.node m = .reset
    · rw [hm]; rfl
    · exact (hb _ (mem_of_entryAt hm)).1
  unfold Work.releaseStep
  generalize c.nodes = ps
  induction ps with
  | nil => rfl
  | cons p ps ih =>
    rw [List.foldl_cons, hholder, if_neg (by simp)]
    exact ih

theorem Work.cutOff_nodes (w : Work) (e : Env) (n : LaneId) (c : CurStep) : (w.cutOff e n c).nodes = w.nodes := by
  have hdrive : ∀ (ns : List LaneId) (v : Work), (v.driveAll e ns false false).nodes = v.nodes := by
    intro ns
    induction ns with
    | nil => exact fun _ => rfl
    | cons k ns ih => exact fun v => (ih (v.drive e k false false)).trans (by rw [Work.drive_eq]; rfl)
  have hstop : ∀ v : Work, (v.stopStep n c.step).nodes = v.nodes := fun v => by
    unfold Work.stopStep; split <;> rfl
  rw [Work.cutOff, hstop, hdrive]
  exact (Work.sendAll_nodes_chain _ w _).1

theorem Work.releaseHold_nodes (w : Work) (n : LaneId) : (w.releaseHold n).nodes = w.nodes := by
  unfold Work.releaseHold; split <;> rfl

theorem Work.abortLane_sameMap {w : Work} (hb : w.nodes.bare) (e : Env) (n : LaneId) : w.SameMap (w.abortLane e n) := by
  cases hc : (w.lane n).cur with
  | none => rw [Work.abortLane_none hc]; exact .of_nodes rfl
  | some c =>
    by_cases hp : c.phase.pastClaim = true
    · have hnodes : ((w.cutOff e n c).releaseHold n).nodes = w.nodes := by rw [Work.releaseHold_nodes, Work.cutOff_nodes]
      rw [Work.abortLane_past hc hp, Work.abortStep_eq, Work.releaseStep_bare (by rw [hnodes]; exact hb)]
      exact .of_nodes hnodes
    · by_cases hd : c.phase = .deliver
      · rw [Work.abortLane_deliver hc hd]; exact .of_nodes rfl
      · rw [Work.abortLane_kept hc (by simpa using hp) hd, Work.keepStep_eq]
        have hleave := Work.leaveClaim_sameMap (w := w.onLane n fun l => l.kept c c.keepPoint) hb n
        exact hleave.trans (.of_nodes ((Work.onLane_nodes _ _ _).trans (Work.unfreeze_nodes _ _ _)))

theorem Work.delivery_nodes (w : Work) (e : Env) (n : LaneId) (c : CurStep) (r : ResultRecord) :
    (w.delivery e n c r).nodes = w.nodes := by
  obtain ⟨k₁, hentered⟩ := w.enterResult_notices n r
  have hsent : ∀ v : Work, (if c.step.origin = .unit then v.send n (.done c.step.tag r.verdict) else v).nodes = v.nodes :=
    fun v => by
      split
      · exact (Work.sendAll_nodes_chain [n] v _).1
      · rfl
  have hnoted : ∀ (v : Work) (a b : Nat), (v.noteRemoval e n a b).nodes = v.nodes := fun v a b => by
    obtain ⟨k, hk⟩ := v.noteRemoval_notices e n a b
    rw [hk]
  have hraised : ∀ v : Work, (v.raiseVerdict (e.cfg n) n r.verdict).nodes = v.nodes := fun v => by
    obtain ⟨k, hk⟩ := v.raiseVerdict_notices (e.cfg n) n r.verdict
    rw [hk]
  have hended : ∀ v : Work, (v.endPair n c.step).nodes = v.nodes := fun v => by unfold Work.endPair; split <;> rfl
  unfold Work.delivery
  rw [hended, Work.onLane_nodes, hraised, hnoted, Work.setCur, Work.onLane_nodes, hsent, hentered]

theorem Work.offer_nodes {w : Work} (h : w.Halted) (e : Env) (n : LaneId) : (w.offer e n).nodes = w.nodes := by
  unfold Work.offer
  split
  · split
    · split
      · rw [Work.deliver_eq]
        rcases Work.tryFollow_halted (h.delivery e n _ _) e n with hf | hf <;> rw [hf]
        · exact w.delivery_nodes e n _ _
        · exact w.delivery_nodes e n _ _
      · rfl
    · rfl
  · rfl

/-- Where no node has a holder or a mark, the safety abort leaves the node map but for the claim order list. -/
theorem Work.safetyAbort_sameMap {w : Work} (hs : w.chain.state = .fault) (hb : w.nodes.bare) (e : Env) (c : Cause) :
    w.SameMap (w.safetyAbort e c) := by
  have haborts : ∀ (ns : List LaneId) (v : Work), v.nodes.bare → v.SameMap (ns.foldl (fun w n => w.abortLane e n) v) := by
    intro ns
    induction ns with
    | nil => exact fun v _ => .of_nodes rfl
    | cons n ns ih =>
      intro v hv
      have h := Work.abortLane_sameMap hv e n
      exact h.trans (ih _ (h.bare hv))
  have hoffers : ∀ (ns : List LaneId) (v : Work), v.Halted → v.SameMap (ns.foldl (fun w n => w.offer e n) v) := by
    intro ns
    induction ns with
    | nil => exact fun v _ => .of_nodes rfl
    | cons n ns ih =>
      intro v hv
      exact Work.SameMap.trans (.of_nodes (Work.offer_nodes hv e n)) (ih _ (hv.offer e n))
  rw [Work.safetyAbort_fault hs]
  exact Work.SameMap.trans (Work.SameMap.trans (.of_nodes rfl) (haborts allLanes (w.raise c) hb))
    (hoffers allLanes _ (Work.abortLanes_halted _ e))

end Sys2Proof.Machine
end

section
/-! PROOFS, family 02_the_node_map.md: a safety abort over lanes with no step past CLAIM. -/

namespace Sys2Proof.Machine

/-! ### A lane with no step past CLAIM -/

/-- The lane has a step that a safety abort keeps: one that is not in DELIVER (R183). -/
def Lane.keeps (l : Lane) : Bool :=
  match l.cur with
  | some c => decide (c.phase ≠ .deliver)
  | none => false

/-- The lane has a FUSED step that a safety abort keeps. -/
def Lane.keepsFused (l : Lane) : Bool :=
  match l.cur with
  | some c => c.step.flags.fused && decide (c.phase ≠ .deliver)
  | none => false

/-- A lane with no step past CLAIM under a safety abort (R183). -/
def Lane.aborted (l : Lane) : Lane :=
  match l.cur with
  | none => l.holdIdle
  | some c => if c.phase = .deliver then l.holdNext else (l.kept c c.keepPoint).hold

theorem Lane.aborted_frozen (l : Lane) (b : Bool) :
    ({ l with frozen := b } : Lane).aborted = { l.aborted with frozen := b } := by
  unfold Lane.aborted; dsimp only; split
  · unfold Lane.holdIdle; dsimp only; split <;> rfl
  · split <;> rfl

theorem Lane.aborted_frozen_self (l : Lane) : l.aborted.frozen = l.frozen := by
  unfold Lane.aborted; split
  · unfold Lane.holdIdle; split <;> rfl
  · split <;> rfl

/-- The node's mark goes when it is one of these lanes'. -/
def NodeEntry.unmarkedFor (x : NodeEntry) (p : LaneId → Bool) : NodeEntry :=
  { x with waiter := x.waiter.filter fun a => !p a }

theorem NodeEntry.unmarkedFor_none {x : NodeEntry} {p : LaneId → Bool} (h : ∀ a, x.waiter = some a → p a = false) :
    x.unmarkedFor p = x := by
  obtain ⟨_, _, _, _, _, waiter⟩ := x
  cases waiter with
  | none => rfl
  | some a => simp [NodeEntry.unmarkedFor, h a rfl]

theorem NodeEntry.unmarkedFor_one (x : NodeEntry) (a : LaneId) :
    (if x.waiter = some a then { x with waiter := none } else x) = x.unmarkedFor fun b => decide (b = a) := by
  obtain ⟨_, _, _, _, _, waiter⟩ := x
  cases waiter with
  | none => rfl
  | some b => by_cases h : b = a <;> simp [NodeEntry.unmarkedFor, Option.filter, h]

theorem NodeEntry.unmarkedFor_or (x : NodeEntry) (p q : LaneId → Bool) :
    (x.unmarkedFor p).unmarkedFor q = x.unmarkedFor fun a => p a || q a := by
  simp only [NodeEntry.unmarkedFor, Option.filter_filter, Bool.not_or]

/-- A lane that leaves its claim goes off the claim order list and its marks go from the nodes (R25). -/
theorem Work.leaveClaim_marks {w : Work} (hw : w.wake = true) (hwf : entriesWf w.nodes.entries) (a : LaneId) :
    ∃ v : Work, w.leaveClaim a = v ∧
      v = { w with nodes := { w.nodes with entries := v.nodes.entries, order := w.nodes.order.filter (· != a) } } ∧
      entriesWf v.nodes.entries ∧ ∀ m, v.node m = (w.node m).unmarkedFor fun b => decide (b = a) := by
  by_cases hany : (w.nodes.entries.any fun p => decide (p.2.waiter = some a)) = true
  · have hmap := entriesWf_mapEntries hwf fun x => if x.waiter = some a then { x with waiter := none } else x
    refine ⟨{ w with nodes :=
        { w.nodes with
          entries := mapEntries (fun x => if x.waiter = some a then { x with waiter := none } else x) w.nodes.entries
          order := w.nodes.order.filter (· != a) } }, ?_, rfl, hmap, fun m => ?_⟩
    · simp only [Work.leaveClaim, Work.clearMarks, hany, if_true, Work.onNodes, hw]
    · exact (entryAt_mapEntries (f := fun x => if x.waiter = some a then { x with waiter := none } else x) hwf
        (by simp [NodeEntry.reset]) m).trans (NodeEntry.unmarkedFor_one _ a)
  · have hnone : ∀ m, (w.node m).waiter ≠ some a := Work.waiter_of_entries fun p hp hmark =>
      hany (List.any_eq_true.2 ⟨p, hp, decide_eq_true hmark⟩)
    refine ⟨_, Work.leaveClaim_unmarked hwf hnone, rfl, hwf, fun m => ?_⟩
    exact (NodeEntry.unmarkedFor_none fun b hb => decide_eq_false fun h => hnone m (hb.trans (congrArg some h))).symm

/-! ### What a safety abort of some of the lanes leaves -/

/-- The lane is the follower of one of these lanes that keeps a FUSED step. -/
def Work.thaws (w : Work) (p : LaneId → Bool) (n : LaneId) : Bool :=
  match leaderOf n with
  | some k => p k && (w.lane k).keepsFused
  | none => false

/-- The part after the safety abort of some lanes, none of them with a step past CLAIM (R183). -/
structure Work.AbortedFor (w v : Work) (p : LaneId → Bool) : Prop where
  frame :
    v = { w with
          lanes := v.lanes
          nodes :=
            { w.nodes with
              entries := v.nodes.entries
              order := w.nodes.order.filter fun a => !(p a && (w.lane a).keeps) } }
  wf : entriesWf v.nodes.entries
  lane : ∀ n, v.lane n =
    { (if p n = true then (w.lane n).aborted else w.lane n) with frozen := (w.lane n).frozen && !w.thaws p n }
  node : ∀ m, v.node m = (w.node m).unmarkedFor fun a => p a && (w.lane a).keeps

theorem Work.AbortedFor.lane_of_not {w v : Work} {p : LaneId → Bool} (h : w.AbortedFor v p) {n : LaneId} (hn : p n = false) :
    v.lane n = { w.lane n with frozen := (w.lane n).frozen && !w.thaws p n } := by
  have := h.lane n
  rwa [hn, if_neg (by simp)] at this

theorem Work.AbortedFor.trans {u v w : Work} {p q : LaneId → Bool} (h : u.AbortedFor v p) (k : v.AbortedFor w q)
    (hd : ∀ a, q a = true → p a = false) : u.AbortedFor w fun a => p a || q a := by
  have hkeeps : ∀ a, (q a && (v.lane a).keeps) = (q a && (u.lane a).keeps) := fun a => by
    cases hq : q a with
    | false => rfl
    | true => rw [h.lane_of_not (hd a hq)]; rfl
  have hthaws : ∀ n, u.thaws (fun a => p a || q a) n = (u.thaws p n || v.thaws q n) := fun n => by
    unfold Work.thaws
    cases leaderOf n with
    | none => rfl
    | some a =>
      have hfused : (q a && (v.lane a).keepsFused) = (q a && (u.lane a).keepsFused) := by
        cases hq : q a with
        | false => rfl
        | true => rw [h.lane_of_not (hd a hq)]; rfl
      exact (Bool.and_or_distrib_right _ _ _).trans (congrArg _ hfused.symm)
  have horder : v.nodes.order.filter (fun a => !(q a && (v.lane a).keeps)) =
      u.nodes.order.filter fun a => !((p a || q a) && (u.lane a).keeps) := by
    have hv : v.nodes.order = u.nodes.order.filter fun a => !(p a && (u.lane a).keeps) := congrArg (·.nodes.order) h.frame
    simp only [hv, List.filter_filter, hkeeps, Bool.and_or_distrib_right, Bool.not_or, Bool.and_comm]
  refine ⟨?_, k.wf, fun n => ?_, fun m => ?_⟩
  · refine k.frame.trans ?_
    rw [horder]
    conv_lhs => rw [h.frame]
  · rw [k.lane, hthaws]
    by_cases hq : q n = true
    · rw [h.lane_of_not (hd n hq), Lane.aborted_frozen]
      simp [hq, Bool.and_assoc]
    · rw [h.lane]
      simp [hq, Bool.and_assoc]
  · rw [k.node, h.node, NodeEntry.unmarkedFor_or]
    simp only [hkeeps, Bool.and_or_distrib_right]

/-- The lane's step is none past CLAIM, and one in DELIVER finds the result queue full. -/
def Work.Quiet (w : Work) (n : LaneId) : Prop :=
  ∀ c, (w.lane n).cur = some c →
    c.phase.pastClaim = false ∧ (c.phase = .deliver → 128 ≤ w.results.length)

theorem fusedFollower_leaderOf {k n : LaneId} (r : StepRecord) :
    fusedFollower k r = some n ↔ leaderOf n = some k ∧ r.flags.fused = true := by
  have hpair : ∀ k n : LaneId, (k = 0 ∨ k = 2) ∧ followerOf k = n ↔ leaderOf n = some k := by decide
  rw [← hpair]
  unfold fusedFollower
  split
  · next h => simp [h.1, h.2]
  · next h => simp only [reduceCtorEq, false_iff]; exact fun hk => h ⟨hk.2, hk.1.1⟩

theorem Work.unfreeze_eq (w : Work) (k : LaneId) (r : StepRecord) :
    w.unfreeze k r = { w with lanes := (w.unfreeze k r).lanes } ∧
      ∀ n, (w.unfreeze k r).lane n =
        { w.lane n with frozen := (w.lane n).frozen && !(decide (leaderOf n = some k) && r.flags.fused) } := by
  unfold Work.unfreeze
  cases hf : fusedFollower k r with
  | none =>
    refine ⟨rfl, fun n => ?_⟩
    have hn : (decide (leaderOf n = some k) && r.flags.fused) = false := by
      by_contra h
      simp only [Bool.not_eq_false, Bool.and_eq_true, decide_eq_true_eq] at h
      rw [(fusedFollower_leaderOf r).2 h] at hf
      simp at hf
    simp [hn]
  | some f =>
    obtain ⟨hlead, hfused⟩ := (fusedFollower_leaderOf r).1 hf
    refine ⟨rfl, fun n => ?_⟩
    by_cases hn : n = f
    · subst hn; simp [hlead, hfused]
    · have hne : ¬ leaderOf n = some k := fun h => hn (by
        have := (fusedFollower_leaderOf r).2 ⟨h, hfused⟩
        rw [hf] at this
        exact (Option.some.inj this).symm)
      simp [Work.lane_onLane_ne _ _ hn, hne]

theorem Work.thaws_one (w : Work) (k n : LaneId) :
    w.thaws (fun a => decide (a = k)) n = (decide (leaderOf n = some k) && (w.lane k).keepsFused) := by
  unfold Work.thaws
  cases leaderOf n with
  | none => simp
  | some a =>
    by_cases h : a = k
    · subst h; simp
    · simp [h]

theorem Work.AbortedFor.of_onLane {w : Work} {n : LaneId} {f : Lane → Lane} (hwf : entriesWf w.nodes.entries)
    (hk : (w.lane n).keeps = false) (hf : f (w.lane n) = (w.lane n).aborted) :
    w.AbortedFor (w.onLane n f) fun a => decide (a = n) := by
  have hkeeps : ∀ a, (decide (a = n) && (w.lane a).keeps) = false := fun a => by
    by_cases h : a = n
    · subst h; simp [hk]
    · simp [h]
  have hfused : (w.lane n).keepsFused = false := by
    unfold Lane.keeps at hk
    unfold Lane.keepsFused
    split at hk <;> simp_all
  refine ⟨?_, hwf, fun m => ?_, fun m => ?_⟩
  · simp only [hkeeps, Bool.not_false, List.filter_true]
    rfl
  · rw [Work.thaws_one, hfused]
    by_cases h : m = n
    · subst h
      rw [Work.lane_onLane, hf]
      simpa using Lane.aborted_frozen (w.lane m) (w.lane m).frozen
    · rw [Work.lane_onLane_ne _ _ h]
      simp [h]
  · simp only [hkeeps]
    exact (NodeEntry.unmarkedFor_none fun _ _ => rfl).symm

/-- The safety abort of one lane with no step past CLAIM. -/
theorem Work.abortLane_quiet {w : Work} (e : Env) {n : LaneId} (hw : w.wake = true) (hwf : entriesWf w.nodes.entries)
    (hq : ∀ c, (w.lane n).cur = some c → c.phase.pastClaim = false) :
    w.AbortedFor (w.abortLane e n) fun a => decide (a = n) := by
  cases hc : (w.lane n).cur with
  | none =>
    rw [Work.abortLane_none hc]
    exact .of_onLane hwf (by simp [Lane.keeps, hc]) (by simp [Lane.aborted, hc])
  | some c =>
    by_cases hd : c.phase = .deliver
    · rw [Work.abortLane_deliver hc hd]
      exact .of_onLane hwf (by simp [Lane.keeps, hc, hd]) (by simp [Lane.aborted, hc, hd])
    · rw [Work.abortLane_kept hc (hq c hc) hd, Work.keepStep_eq]
      obtain ⟨u, hu⟩ : ∃ u : Work, u = w.onLane n fun l => l.kept c c.keepPoint := ⟨_, rfl⟩
      obtain ⟨v, hleave, hv, hvwf, hvnode⟩ := Work.leaveClaim_marks (w := u) (by rw [hu]; exact hw) (by rw [hu]; exact hwf) n
      obtain ⟨hthaw, hthawed⟩ := v.unfreeze_eq n c.step
      have hkeeps : ∀ a, (decide (a = n) && (w.lane a).keeps) = decide (a = n) := fun a => by
        by_cases h : a = n
        · subst h; simp [Lane.keeps, hc, hd]
        · simp [h]
      have hvlane : ∀ m, v.lane m = u.lane m := fun m => by rw [← hleave, Work.leaveClaim_lane]
      have hfused : (w.lane n).keepsFused = c.step.flags.fused := by simp [Lane.keepsFused, hc, hd]
      have hnodes : ((v.unfreeze n c.step).onLane n Lane.hold).nodes = v.nodes := v.unfreeze_nodes n c.step
      have hframe : ∀ L, ({ v with lanes := L } : Work) =
          { w with
            lanes := L
            nodes := { w.nodes with entries := v.nodes.entries, order := w.nodes.order.filter (· != n) } } := fun L => by
        conv_lhs => rw [hv, hu]
        rfl
      rw [← hu, hleave]
      refine ⟨?_, by rw [hnodes]; exact hvwf, fun m => ?_, fun m => ?_⟩
      · simp only [hkeeps]
        rw [hnodes]
        exact (congrArg (·.onLane n Lane.hold) hthaw).trans (hframe _)
      · rw [Work.thaws_one, hfused]
        by_cases hm : m = n
        · subst hm
          have hself : leaderOf m ≠ some m := leaderOf_ne m
          rw [Work.lane_onLane, hthawed, hvlane, hu, Work.lane_onLane]
          simp [hself, Lane.aborted, hc, hd, Lane.kept, Lane.hold]
        · rw [Work.lane_onLane_ne _ _ hm, hthawed, hvlane, hu, Work.lane_onLane_ne _ _ hm]
          simp [hm]
      · simp only [hkeeps]
        exact (Work.node_congr hnodes m).trans ((hvnode m).trans (by rw [hu]; rfl))

/-- The safety abort of every lane, none of them with a step past CLAIM. -/
theorem Work.abortLanes_quiet {w : Work} (e : Env) (hw : w.wake = true) (hwf : entriesWf w.nodes.entries)
    (hq : ∀ n c, (w.lane n).cur = some c → c.phase.pastClaim = false) : w.AbortedFor (w.abortLanes e) fun _ => true := by
  have hfold : ∀ (ns : List LaneId) (v : Work) (p : LaneId → Bool), w.AbortedFor v p → ns.Nodup → (∀ n ∈ ns, p n = false) →
      w.AbortedFor (ns.foldl (fun w n => w.abortLane e n) v) fun a => p a || decide (a ∈ ns) := by
    intro ns
    induction ns with
    | nil => exact fun v p h _ _ => by simpa using h
    | cons n ns ih =>
      intro v p h hd hp
      rw [List.nodup_cons] at hd
      have hlane := h.lane_of_not (hp n (by simp))
      have hstep : v.AbortedFor (v.abortLane e n) fun a => decide (a = n) :=
        Work.abortLane_quiet e (by rw [h.frame]; exact hw) h.wf fun c hc => hq n c (by rw [hlane] at hc; exact hc)
      have hboth := h.trans hstep fun a ha => by rw [of_decide_eq_true ha]; exact hp n (by simp)
      have hrest := ih _ _ hboth hd.2 fun m hm => by
        have hne : m ≠ n := fun he => hd.1 (he ▸ hm)
        simp [hp m (by simp [hm]), hne]
      simpa [List.mem_cons, Bool.or_assoc, Bool.decide_or] using hrest
  have hnone : w.AbortedFor w fun _ => false := by
    refine ⟨by simp, hwf, fun n => ?_, fun m => (NodeEntry.unmarkedFor_none fun _ _ => rfl).symm⟩
    have hthaws : w.thaws (fun _ => false) n = false := by unfold Work.thaws; split <;> rfl
    simp [hthaws]
  have hall := hfold allLanes w (fun _ => false) hnone nodup_allLanes fun _ _ => rfl
  simp only [Bool.false_or, mem_allLanes, decide_true] at hall
  exact hall

theorem Work.offer_keeps {w : Work} {e : Env} {n : LaneId}
    (h : ∀ c, (w.lane n).cur = some c → c.phase = .deliver → 128 ≤ w.results.length) : w.offer e n = w := by
  unfold Work.offer
  split
  · next c hc =>
    split
    · next hp _ => exact if_neg (by have := h c hc hp; simp [Config.resultCap]; omega)
    · rfl
  · rfl

theorem Work.offerAll_keeps {w : Work} {e : Env}
    (h : ∀ n c, (w.lane n).cur = some c → c.phase = .deliver → 128 ≤ w.results.length) : w.offerAll e = w := by
  unfold Work.offerAll
  generalize allLanes = ns
  induction ns with
  | nil => rfl
  | cons n ns ih => rw [List.foldl_cons, Work.offer_keeps (h n)]; exact ih

theorem Lane.aborted_deliver {l : Lane} {c : CurStep} (h : l.aborted.cur = some c) (hp : c.phase = .deliver) :
    l.cur = some c := by
  cases hc : l.cur with
  | none => simp [Lane.aborted, hc, Lane.holdIdle_cur] at h
  | some d =>
    by_cases hd : d.phase = .deliver
    · simpa [Lane.aborted, hc, hd, Lane.holdNext] using h
    · have hkept : some ({ d with phase := .none, resume := some d.keepPoint } : CurStep) = some c := by
        simpa [Lane.aborted, hc, hd, Lane.kept, Lane.hold] using h
      rw [← Option.some.inj hkept] at hp
      simp at hp

/-- A chain fault's event in a part with no step past CLAIM, no slot to fill and no record that fits (R183). -/
theorem Work.faultEvent_quiet {w : Work} (e : Env) (p : Port) (hs : w.chain.state = .fault) (hw : w.wake = true)
    (hwf : entriesWf w.nodes.entries) (hwaiting : w.chain.waiting = []) (hdue : ∀ m, (w.node m).wantsOpen = false)
    (hq : ∀ n, w.Quiet n) :
    ∃ v : Work, w.faultEvent e p = v ∧
      v = { w with
            lanes := v.lanes
            nodes :=
              { w.nodes with
                entries := v.nodes.entries, order := w.nodes.order.filter fun a => !(w.lane a).keeps }
            notices := (w.raise .chainFault).notices, port := p, wake := false, freed := false } ∧
      (∀ n, v.lane n =
        { (w.lane n).aborted with frozen := (w.lane n).frozen && !w.thaws (fun _ => true) n }) ∧
      ∀ m, v.node m = (w.node m).unmarkedFor fun a => (w.lane a).keeps := by
  have hab := Work.abortLanes_quiet (w := w.raise .chainFault) e hw hwf fun n c hc => (hq n c hc).1
  have hhalted := Work.safetyAbort_halted hs e .chainFault
  have hall := Work.safetyAbort_fault hs e .chainFault
  obtain ⟨a, ha⟩ : ∃ a : Work, a = (w.raise .chainFault).abortLanes e := ⟨_, rfl⟩
  rw [← ha] at hab hall
  have hoffers : a.offerAll e = a := Work.offerAll_keeps fun n c hc hp => by
    rw [hab.lane, if_pos rfl] at hc
    have := (hq n c (Lane.aborted_deliver hc hp)).2 hp
    rw [hab.frame]
    exact this
  rw [hoffers] at hall
  rw [hall] at hhalted
  have hwaitinga : a.chain.waiting = [] := by rw [hab.frame]; exact hwaiting
  have hduea : a.dueNodes = [] := List.eq_nil_iff_forall_not_mem.2 fun m hm => by
    have h := (Work.mem_dueNodes hab.wf m).1 hm
    rw [hab.node] at h
    exact absurd (h.symm.trans (hdue m)) (by simp)
  have hfinish := Work.finish_halted (w := { a with port := p }) hhalted (by rw [hab.frame]; exact hw) e
  rw [Work.serveSlots_none (by exact hwaitinga) (by exact hduea)] at hfinish
  refine ⟨{ a with port := p, wake := false, freed := false }, ?_, ?_, fun n => ?_, fun m => ?_⟩
  · rw [Work.faultEvent, hall]; exact hfinish
  · conv_lhs => rw [hab.frame]
    rfl
  · exact (hab.lane n).trans (by rw [if_pos rfl]; rfl)
  · exact hab.node m

end Sys2Proof.Machine
end

section
/-! PROOFS, family 02_the_node_map.md: a safety abort that meets one step past CLAIM. -/

namespace Sys2Proof.Machine

/-! ### The lanes of a step that is cut off -/

theorem mem_stepLanes {n m : LaneId} {r : StepRecord} : m ∈ stepLanes n r ↔ m = n ∨ fusedFollower n r = some m := by
  simp [stepLanes]

theorem nodup_stepLanes (n : LaneId) (r : StepRecord) : (stepLanes n r).Nodup := by
  unfold stepLanes
  cases hf : fusedFollower n r with
  | none => simp
  | some f => simpa using (fusedFollower_ne hf).symm

/-- The message and the lines of one lane of a step that is cut off (R81, R144). -/
def Lane.cutLines (l : Lane) (auto : Bool) (c : CurStep) : Lane :=
  { l with
    tx := l.tx ++ [.cancel c.step.tag c.attempt]
    src := if auto then false else l.src, gate := if auto then false else l.gate }

/-- A step that is cut off sends CANCEL and drops its lines on its lanes, and stops its channels, when every message fits. -/
theorem Work.cutOff_lanes {w : Work} (e : Env) {n : LaneId} {c : CurStep}
    (htx : ∀ m ∈ stepLanes n c.step, (w.lane m).tx.length < 32) :
    ∃ v : Work, w.cutOff e n c = v ∧ v = { w with lanes := v.lanes } ∧
      v.lane n = (w.lane n).cutOff (decide ((e.cfg n).lineMode = .auto)) c ∧
      ∀ m, m ≠ n → v.lane m =
        if fusedFollower n c.step = some m then
          ((w.lane m).cutLines (decide ((e.cfg m).lineMode = .auto)) c).pairStopped
        else w.lane m := by
  obtain ⟨u, hsend, hu, hul⟩ := Work.foldl_onLane (w := w)
    (op := fun w m => w.send m (.cancel c.step.tag c.attempt))
    (g := fun _ l => { l with tx := l.tx ++ [.cancel c.step.tag c.attempt] })
    (fun v m hm _ hl => Work.send_room _ (by rw [hl]; exact htx m hm)) (nodup_stepLanes n c.step)
  obtain ⟨v, hdrive, hv, hvl⟩ := Work.foldl_onLane (w := u) (op := fun w m => w.drive e m false false)
    (g := fun m l => if (e.cfg m).lineMode = .auto then { l with src := false, gate := false } else l)
    (fun v m _ _ _ => v.drive_eq e m false false) (nodup_stepLanes n c.step)
  have hcut : w.cutOff e n c = v.stopStep n c.step := by rw [← hdrive, ← hsend]; rfl
  have hlines : ∀ m ∈ stepLanes n c.step,
      v.lane m = (w.lane m).cutLines (decide ((e.cfg m).lineMode = .auto)) c := fun m hm => by
    rw [hvl, if_pos hm, hul, if_pos hm]
    by_cases ha : (e.cfg m).lineMode = .auto <;> simp [ha, Lane.cutLines]
  have hother : ∀ m, m ∉ stepLanes n c.step → v.lane m = w.lane m := fun m hm => by
    rw [hvl, if_neg hm, hul, if_neg hm]
  have hframe : ∀ L, ({ v with lanes := L } : Work) = { w with lanes := L } := fun L => by rw [hv, hu]
  rw [hcut]
  cases hf : fusedFollower n c.step with
  | none =>
    have hstop : v.stopStep n c.step = v.onLane n Lane.stopped := by simp only [Work.stopStep, hf, Work.stopAll_eq]
    refine ⟨_, hstop, hframe _, ?_, fun m hm => ?_⟩
    · rw [Work.lane_onLane, hlines n (mem_stepLanes.2 (.inl rfl))]; rfl
    · rw [Work.lane_onLane_ne _ _ hm, hother m fun h => by simpa [hm, hf] using mem_stepLanes.1 h]
      simp
  | some f =>
    have hne : f ≠ n := fusedFollower_ne hf
    have hstop : v.stopStep n c.step = (v.onLane n Lane.stopped).onLane f Lane.pairStopped := by
      simp only [Work.stopStep, hf, Work.stopAll_eq, Work.stopPair_eq]
    refine ⟨_, hstop, hframe _, ?_, fun m hm => ?_⟩
    · rw [Work.lane_onLane_ne _ _ hne.symm, Work.lane_onLane, hlines n (mem_stepLanes.2 (.inl rfl))]; rfl
    · by_cases hmf : m = f
      · subst hmf
        rw [Work.lane_onLane, Work.lane_onLane_ne _ _ hm, hlines m (mem_stepLanes.2 (.inr hf)), if_pos rfl]
      · rw [Work.lane_onLane_ne _ _ hmf, Work.lane_onLane_ne _ _ hm, hother m fun h => by
          rcases mem_stepLanes.1 h with h | h
          · exact hm h
          · exact hmf (Option.some.inj (h.symm.trans hf))]
        rw [if_neg fun h => hmf (Option.some.inj h).symm]

/-! ### The holds and the holders of a step that is cut off -/

theorem Work.releaseHold_holds (w : Work) (n : LaneId) : n ∉ (w.releaseHold n).chain.holds := by
  unfold Work.releaseHold
  split
  · simp
  · next h => simpa using h

theorem Work.Releases.holds {w v : Work} (h : w.Releases v) : v.chain.holds = w.chain.holds := by
  rw [show v = _ from h]

theorem Work.abortStep_holds (w : Work) (e : Env) (n : LaneId) (c : CurStep) : n ∉ (w.abortStep e n c).chain.holds := by
  have hchain : (w.abortStep e n c).chain.holds = ((w.cutOff e n c).releaseHold n).chain.holds := by
    rw [Work.abortStep_eq]
    exact (Work.releaseStep_releases _ e n c).holds
  rw [hchain]
  exact Work.releaseHold_holds _ n

theorem Work.abortStep_holder (w : Work) (e : Env) (n : LaneId) (c : CurStep) (k : Nat) :
    ((w.abortStep e n c).node k).holder =
      if k ∈ c.nodes.map (·.1) ∧ (w.node k).holder = .lane n then .none else (w.node k).holder := by
  have hnode : ((w.cutOff e n c).releaseHold n).node k = w.node k :=
    Work.node_congr (((w.cutOff e n c).releaseHold_nodes n).trans (w.cutOff_nodes e n c)) k
  have hholder := ((w.cutOff e n c).releaseHold n).holder_releaseStep e n c k
  rw [hnode] at hholder
  rw [Work.abortStep_eq]
  exact hholder

/-! ### The safety abort of all lanes, one of them past CLAIM -/

/-- Lane `n` alone has a step, a host's step past CLAIM; its messages fit, and lane `n` is not frozen (R183). -/
structure Work.OnePast (w : Work) (n : LaneId) (c : CurStep) : Prop where
  cur : (w.lane n).cur = some c
  past : c.phase.pastClaim = true
  alone : ∀ m, m ≠ n → (w.lane m).cur = none
  host : c.step.origin = .host
  room : ∀ m : LaneId, (w.lane m).tx.length < 32
  thawed : (w.lane n).frozen = false
  results : w.results.length < 128

/-- A lane other than that of the step: its pair cut off, and held unless STOPPED. -/
def Lane.cutAndHeld (l : Lane) (pair auto : Bool) (c : CurStep) : Lane :=
  (if pair = true then (l.cutLines auto c).pairStopped else l).holdIdle

theorem Lane.cutLines_cur (l : Lane) (auto : Bool) (c : CurStep) : (l.cutLines auto c).pairStopped.cur = l.cur := rfl

theorem Lane.holdIdle_tx (l : Lane) : l.holdIdle.tx = l.tx := by unfold Lane.holdIdle; split <;> rfl

theorem Lane.holdIdle_cut (l : Lane) (auto : Bool) (c : CurStep) :
    (l.holdIdle.cutLines auto c).pairStopped = (l.cutLines auto c).pairStopped.holdIdle := by
  by_cases h : l.run = .stopped <;> simp [Lane.holdIdle, Lane.cutLines, Lane.pairStopped, Lane.hold, h]

/-- The lanes with no step go HELD, each by itself. -/
theorem Work.holdIdles {w : Work} (e : Env) {ns : List LaneId} (hd : ns.Nodup) (h : ∀ m ∈ ns, (w.lane m).cur = none) :
    ∃ v : Work, ns.foldl (fun w n => w.abortLane e n) w = v ∧ v = { w with lanes := v.lanes } ∧
      ∀ m, v.lane m = if m ∈ ns then (w.lane m).holdIdle else w.lane m :=
  Work.foldl_onLane (g := fun _ => Lane.holdIdle)
    (fun v m hm _ hl => Work.abortLane_none (by rw [hl]; exact h m hm)) hd

theorem Work.abortLanes_onePast {w : Work} (e : Env) {n : LaneId} {c : CurStep} (h : w.OnePast n c) :
    ∃ v : Work, w.abortLanes e = v ∧ v.results = w.results ∧
      v.lane n = ({ (w.lane n).cutOff (decide ((e.cfg n).lineMode = .auto)) c with cur := some (c.aborted n) } : Lane).holdNext ∧
      (∀ m, m ≠ n → v.lane m = (w.lane m).cutAndHeld (decide (fusedFollower n c.step = some m))
        (decide ((e.cfg m).lineMode = .auto)) c) ∧
      (∀ k, (v.node k).holder =
        if k ∈ c.nodes.map (·.1) ∧ (w.node k).holder = .lane n then .none else (w.node k).holder) ∧
      n ∉ v.chain.holds := by
  obtain ⟨pre, post, hsplit⟩ := List.append_of_mem (mem_allLanes n)
  have hnodup := nodup_allLanes
  rw [hsplit, List.nodup_append, List.nodup_cons] at hnodup
  obtain ⟨hpre, ⟨hnpost, hpost⟩, hdisj⟩ := hnodup
  have hnpre : n ∉ pre := fun hn => hdisj n hn n (by simp) rfl
  have hcover : ∀ m, m ≠ n → (m ∈ pre ∧ m ∉ post) ∨ (m ∉ pre ∧ m ∈ post) := fun m hm => by
    have hall := mem_allLanes m
    rw [hsplit, List.mem_append, List.mem_cons] at hall
    rcases hall with hp | hp | hp
    · exact .inl ⟨hp, fun hq => hdisj m hp m (by simp [hq]) rfl⟩
    · exact absurd hp hm
    · exact .inr ⟨fun hq => hdisj m hq m (by simp [hp]) rfl, hp⟩
  obtain ⟨u, hufold, hu, hul⟩ := Work.holdIdles e hpre fun m hm => h.alone m fun hn => hnpre (hn ▸ hm)
  have hun : u.lane n = w.lane n := by rw [hul, if_neg hnpre]
  have hucur : (u.lane n).cur = some c := by rw [hun]; exact h.cur
  obtain ⟨x, hcut, hx, hxn, hxm⟩ := Work.cutOff_lanes (w := u) e (n := n) (c := c) fun m _ => by
    rw [hul]
    split
    · rw [Lane.holdIdle_tx]; exact h.room m
    · exact h.room m
  obtain ⟨b, hb⟩ : ∃ b : Work, b = (u.abortStep e n c).onLane n Lane.holdNext := ⟨_, rfl⟩
  have hbn : b.lane n = ({ (w.lane n).cutOff (decide ((e.cfg n).lineMode = .auto)) c with cur := some (c.aborted n) } : Lane).holdNext := by
    rw [hb, Work.lane_onLane, Work.abortStep_lane, hcut, hxn, hun]
  have hbm : ∀ m, m ≠ n → b.lane m =
      if fusedFollower n c.step = some m then
        ((u.lane m).cutLines (decide ((e.cfg m).lineMode = .auto)) c).pairStopped
      else u.lane m := fun m hm => by
    rw [hb, Work.lane_onLane_ne _ _ hm, Work.abortStep_lane_ne u e c hm, hcut, hxm m hm]
  have hbresults : b.results = w.results := by
    rw [hb, Work.onLane_results, Work.abortStep_results, hcut, hx, hu]
  have hucurm : ∀ m, m ≠ n → (u.lane m).cur = none := fun m hm => by
    rw [hul]
    split
    · rw [Lane.holdIdle_cur]; exact h.alone m hm
    · exact h.alone m hm
  have hbcur : ∀ m, m ≠ n → (b.lane m).cur = none := fun m hm => by
    rw [hbm m hm]
    split
    · rw [Lane.cutLines_cur]; exact hucurm m hm
    · exact hucurm m hm
  obtain ⟨v, hvfold, hv, hvl⟩ := Work.holdIdles (w := b) e hpost fun m hm => hbcur m fun hn => hnpost (hn ▸ hm)
  have habort : w.abortLanes e = v := by
    rw [Work.abortLanes, hsplit, List.foldl_append, hufold, List.foldl_cons, Work.abortLane_past hucur h.past, ← hb, hvfold]
  refine ⟨v, habort, by rw [hv]; exact hbresults, ?_, fun m hm => ?_, fun k => ?_, ?_⟩
  · rw [hvl, if_neg hnpost, hbn]
  · rw [hvl, hbm m hm, hul, Lane.cutAndHeld]
    rcases hcover m hm with ⟨hp, hq⟩ | ⟨hp, hq⟩
    · by_cases hf : fusedFollower n c.step = some m <;> simp [hp, hq, hf, Lane.holdIdle_cut]
    · by_cases hf : fusedFollower n c.step = some m <;> simp [hp, hq, hf]
  · have hnode : v.node k = (u.abortStep e n c).node k := by rw [hv, hb]; rfl
    have hunode : u.node k = w.node k := by rw [hu]; rfl
    rw [hnode, Work.abortStep_holder, hunode]
  · rw [hv, hb]
    exact u.abortStep_holds e n c

end Sys2Proof.Machine
end

section
/-! PROOFS, family 02_the_node_map.md: the record of a step that a safety abort ends. -/

namespace Sys2Proof.Machine

theorem Work.endPair_lane (w : Work) {n m : LaneId} (r : StepRecord) (hm : m ≠ n) (hf : (w.lane m).run ≠ .following) :
    (w.endPair n r).lane m =
      if fusedFollower n r = some m then { w.lane m with frozen := false } else w.lane m := by
  unfold Work.endPair
  cases h : fusedFollower n r with
  | none => simp
  | some f =>
    by_cases hmf : f = m
    · subst hmf; simp [hf]
    · simp [hmf, Work.lane_onLane_ne _ _ (Ne.symm hmf)]

theorem Work.endPair_parts (w : Work) (n : LaneId) (r : StepRecord) :
    (w.endPair n r).nodes = w.nodes ∧ (w.endPair n r).chain = w.chain := by
  unfold Work.endPair; split <;> exact ⟨rfl, rfl⟩

theorem Lane.cutAndHeld_run (l : Lane) (pair auto : Bool) (c : CurStep) : (l.cutAndHeld pair auto c).run ≠ .following := by
  have hheld : ∀ l : Lane, l.holdIdle.run ≠ .following := fun l => by
    by_cases h : l.run = .stopped <;> simp [Lane.holdIdle, Lane.hold, h]
  exact hheld _

theorem Lane.cutAndHeld_cur (l : Lane) (pair auto : Bool) (c : CurStep) : (l.cutAndHeld pair auto c).cur = l.cur := by
  rw [Lane.cutAndHeld, Lane.holdIdle_cur]
  split <;> rfl

/-- With one lane's step in DELIVER and no step elsewhere, that lane's record alone is offered (R184). -/
theorem Work.offerAll_one {w : Work} (e : Env) {n : LaneId} {d : CurStep} {r : ResultRecord} (hc : (w.lane n).cur = some d)
    (hp : d.phase = .deliver) (hr : d.record = some r) (ho : d.step.origin = .host) (hz : (w.lane n).frozen = false)
    (hlen : w.results.length < 128) (halone : ∀ m, m ≠ n → (w.lane m).cur = none) :
    w.offerAll e = w.deliver e n d r := by
  have hidle : ∀ (ns : List LaneId) (v : Work), (∀ m ∈ ns, (v.lane m).cur = none) →
      ns.foldl (fun w n => w.offer e n) v = v := by
    intro ns
    induction ns with
    | nil => exact fun _ _ => rfl
    | cons m ns ih =>
      intro v hv
      have hm := hv m (by simp)
      rw [List.foldl_cons, Work.offer_keeps fun c hc => by rw [hm] at hc; simp at hc]
      exact ih v fun k hk => hv k (by simp [hk])
  obtain ⟨pre, post, hsplit⟩ := List.append_of_mem (mem_allLanes n)
  have hnodup := nodup_allLanes
  rw [hsplit, List.nodup_append, List.nodup_cons] at hnodup
  obtain ⟨_, ⟨hnpost, _⟩, hdisj⟩ := hnodup
  have hdeliver : ∀ m, m ≠ n → ((w.deliver e n d r).lane m).cur = none := fun m hm => by
    obtain ⟨k, hk⟩ := Work.deliver_pair e r ho hz
    rw [hk]
    exact (Work.endPair_cur _ n _ m).trans ((congrArg Lane.cur (Work.lane_onLane_ne w _ hm)).trans (halone m hm))
  rw [Work.offerAll, hsplit, List.foldl_append,
    hidle pre w fun m hm => halone m fun h => hdisj m hm n (by simp) h, List.foldl_cons, Work.offer_delivers e hc hp hr hlen,
    hidle post _ fun m hm => hdeliver m fun h => hnpost (h ▸ hm)]

theorem Lane.delivered_holdNext (l : Lane) (halts : Bool) :
    (l.holdNext.delivered halts).cur = none ∧ (l.holdNext.delivered halts).run = .held ∧
      (l.holdNext.delivered halts).pendingHold = false ∧ (l.holdNext.delivered halts).tx = l.tx ∧
      (l.holdNext.delivered halts).src = l.src ∧ (l.holdNext.delivered halts).gate = l.gate := by
  unfold Lane.delivered Lane.afterDelivery Lane.holdNext
  exact ⟨rfl, rfl, rfl, rfl, rfl, rfl⟩

/-- What a safety abort leaves where it meets one step past CLAIM (R81, R144, R183, R184). -/
structure Work.EndsOne (w v : Work) (e : Env) (n : LaneId) (c : CurStep) : Prop where
  results : v.results = w.results ++ [c.toRecord n .aborted]
  cur : (v.lane n).cur = none
  run : (v.lane n).run = .held
  unheld : (v.lane n).pendingHold = false
  tx : (v.lane n).tx = (w.lane n).tx ++ [.cancel c.step.tag c.attempt]
  lines : (e.cfg n).lineMode = .auto → (v.lane n).src = false ∧ (v.lane n).gate = false
  others : ∀ m, m ≠ n → v.lane m =
    if fusedFollower n c.step = some m then
      { (w.lane m).cutAndHeld true (decide ((e.cfg m).lineMode = .auto)) c with frozen := false }
    else (w.lane m).holdIdle
  holder : ∀ k, (v.node k).holder =
    if k ∈ c.nodes.map (·.1) ∧ (w.node k).holder = .lane n then .none else (w.node k).holder
  holds : n ∉ v.chain.holds

theorem Work.safetyAbort_onePast {w : Work} (e : Env) {n : LaneId} {c : CurStep} (hs : w.chain.state = .fault)
    (h : w.OnePast n c) : w.EndsOne (w.safetyAbort e .chainFault) e n c := by
  have hpast : (w.raise .chainFault).OnePast n c := ⟨h.cur, h.past, h.alone, h.host, h.room, h.thawed, h.results⟩
  obtain ⟨v, hv, hvresults, hvn, hvm, hvholder, hvholds⟩ := Work.abortLanes_onePast e hpast
  have halone : ∀ m, m ≠ n → (v.lane m).cur = none := fun m hm => by
    rw [hvm m hm, Lane.cutAndHeld_cur]; exact h.alone m hm
  have hcur : (v.lane n).cur = some (c.aborted n) := by rw [hvn]; rfl
  have hthawed : (v.lane n).frozen = false := by rw [hvn]; exact h.thawed
  obtain ⟨k, hk⟩ := Work.deliver_pair (w := v) e (n := n) (c := c.aborted n) (c.toRecord n .aborted) h.host hthawed
  obtain ⟨u, hu⟩ : ∃ u : Work, u = v.onLane n fun l => l.delivered (verdictHalts (e.cfg n) (c.toRecord n .aborted).verdict) :=
    ⟨_, rfl⟩
  rw [← hu] at hk
  have hall : w.safetyAbort e .chainFault =
      { u.endPair n (c.aborted n).step with
        results := v.results ++ [c.toRecord n .aborted], lastDelivering := n, notices := k } := by
    rw [Work.safetyAbort_fault hs, hv,
      Work.offerAll_one e hcur rfl rfl h.host hthawed (by rw [hvresults]; exact h.results) halone, hk]
  obtain ⟨hnodes, hchain⟩ := u.endPair_parts n (c.aborted n).step
  have hun : u.lane n = (v.lane n).delivered (verdictHalts (e.cfg n) (c.toRecord n .aborted).verdict) := by
    rw [hu, Work.lane_onLane]
  have hum : ∀ m, m ≠ n → u.lane m = v.lane m := fun m hm => by rw [hu, Work.lane_onLane_ne _ _ hm]
  have hlane : ∀ m, (w.safetyAbort e .chainFault).lane m = (u.endPair n (c.aborted n).step).lane m := fun m => by
    rw [hall]; rfl
  have hnode : ∀ k, (w.safetyAbort e .chainFault).node k = v.node k := fun k => by
    rw [hall]
    exact (Work.node_congr hnodes k).trans (by rw [hu]; rfl)
  obtain ⟨hdcur, hdrun, hdunheld, hdtx, hdsrc, hdgate⟩ := Lane.delivered_holdNext
    ({ (w.lane n).cutOff (decide ((e.cfg n).lineMode = .auto)) c with cur := some (c.aborted n) } : Lane)
    (verdictHalts (e.cfg n) (c.toRecord n .aborted).verdict)
  have hn : (w.safetyAbort e .chainFault).lane n =
      ({ (w.lane n).cutOff (decide ((e.cfg n).lineMode = .auto)) c with cur := some (c.aborted n) } : Lane).holdNext.delivered
        (verdictHalts (e.cfg n) (c.toRecord n .aborted).verdict) := by
    rw [hlane n, Work.endPair_lane_self, hun, hvn]; rfl
  refine ⟨?_, ?_, ?_, ?_, ?_, fun ha => ⟨?_, ?_⟩, fun m hm => ?_, fun k => ?_, ?_⟩
  · rw [hall]
    exact congrArg (· ++ _) hvresults
  · rw [hn]; exact hdcur
  · rw [hn]; exact hdrun
  · rw [hn]; exact hdunheld
  · rw [hn]; exact hdtx
  · rw [hn, hdsrc]; simp [Lane.cutOff, Lane.stopped, ha]
  · rw [hn, hdgate]; simp [Lane.cutOff, Lane.stopped, ha]
  · have hlanem : v.lane m = (w.lane m).cutAndHeld (decide (fusedFollower n c.step = some m))
        (decide ((e.cfg m).lineMode = .auto)) c := hvm m hm
    rw [hlane m, Work.endPair_lane u _ hm (by rw [hum m hm, hlanem]; exact Lane.cutAndHeld_run _ _ _ _), hum m hm, hlanem]
    by_cases hf : fusedFollower n c.step = some m
    · simp [hf, CurStep.aborted]
    · simp [hf, CurStep.aborted, Lane.cutAndHeld]
  · rw [hnode]; exact hvholder k
  · have hholds : (w.safetyAbort e .chainFault).chain.holds = v.chain.holds := by
      rw [hall]
      exact (congrArg Chain.holds hchain).trans (by rw [hu]; rfl)
    rw [hholds]
    exact hvholds

/-- A chain fault's event where it meets one step past CLAIM. -/
theorem Work.faultEvent_onePast {w : Work} (e : Env) (p : Port) {n : LaneId} {c : CurStep} (hs : w.chain.state = .fault)
    (hw : w.wake = true) (h : w.OnePast n c) : w.EndsOne (w.faultEvent e p) e n c := by
  obtain ⟨hserved, _⟩ := Work.faultEvent_served e p hs hw
  have hend := Work.safetyAbort_onePast e hs h
  refine ⟨hserved.results.trans hend.results, ?_, ?_, ?_, ?_, ?_, fun m hm => ?_, fun k => ?_, ?_⟩
  · rw [hserved.lane]; exact hend.cur
  · rw [hserved.lane]; exact hend.run
  · rw [hserved.lane]; exact hend.unheld
  · rw [hserved.lane]; exact hend.tx
  · rw [hserved.lane]; exact hend.lines
  · rw [hserved.lane]; exact hend.others m hm
  · rw [(hserved.keeps k).2.2]; exact hend.holder k
  · rw [hserved.holds]; exact hend.holds

end Sys2Proof.Machine
end

section
/-! PROOFS, family 02_the_node_map.md: a mismatch on a frame and on an OPEN_ALL. -/

namespace Sys2Proof.Machine

/-! ### The part as a chain fault finds it -/

/-- The part after the effect of a shift end that takes the chain to FAULT, before the safety abort. -/
structure Work.FaultedAs (w z : Work) (effect : Nat → NodeEntry) (linger : List (Nat × Time)) (chain : Chain) : Prop where
  frame :
    z = { w with
          nodes := { w.nodes with entries := z.nodes.entries, linger := linger }
          chain := chain, wake := true, freed := true }
  wf : entriesWf z.nodes.entries
  node : ∀ m, z.node m = effect m
  state : chain.state = .fault

section Faulted

variable {w z : Work} {effect : Nat → NodeEntry} {linger : List (Nat × Time)} {chain : Chain} (e : Env) (p : Port)

theorem Work.FaultedAs.lane (h : w.FaultedAs z effect linger chain) (n : LaneId) : z.lane n = w.lane n := by
  rw [h.frame]; rfl

/-- The safety abort of lanes with no step past CLAIM, where no slot is handed out and no record fits. -/
theorem Work.FaultedAs.quiet (h : w.FaultedAs z effect linger chain) (hrest : w.rested) (hwaiting : chain.waiting = [])
    (hdue : ∀ m, ¬ ((effect m).due = true ∧ (effect m).phase = .closed))
    (hq : ∀ n c, (w.lane n).cur = some c → c.phase.pastClaim = false ∧ (c.phase = .deliver → 128 ≤ w.results.length)) :
    ∃ v : Work, z.faultEvent e p = v ∧
      v = { w with
            lanes := v.lanes
            nodes :=
              { w.nodes with
                entries := v.nodes.entries, linger := linger
                order := w.nodes.order.filter fun a => !(w.lane a).keeps }
            chain := chain, notices := (w.raise .chainFault).notices, port := p } ∧
      (∀ n, v.lane n = { (w.lane n).aborted with frozen := (w.lane n).frozen && !w.thaws (fun _ => true) n }) ∧
      ∀ m, v.node m = (effect m).unmarkedFor fun a => (w.lane a).keeps := by
  obtain ⟨hwake, hfreed⟩ := hrest
  have hstate : z.chain.state = .fault := by rw [h.frame]; exact h.state
  have hopen : ∀ m, (z.node m).wantsOpen = false := fun m => by
    rw [h.node]
    simpa [NodeEntry.wantsOpen] using hdue m
  obtain ⟨v, hv, hframe, hlane, hnode⟩ := Work.faultEvent_quiet e p hstate (by rw [h.frame]) h.wf
    (by rw [h.frame]; exact hwaiting) hopen fun n c hc => by
      rw [h.lane] at hc
      rw [show z.results = w.results by rw [h.frame]]
      exact hq n c hc
  have hthaws : z.thaws = w.thaws := by unfold Work.thaws; simp only [h.lane]
  simp only [h.lane, h.node, hthaws] at hframe hlane hnode
  refine ⟨v, hv, ?_, hlane, hnode⟩
  refine hframe.trans ?_
  conv_lhs => rw [h.frame]
  simp only [hwake, hfreed]
  rfl

/-- The safety abort of lanes with no step at all. -/
theorem Work.FaultedAs.idle (h : w.FaultedAs z effect linger chain) (hrest : w.rested) (hwaiting : chain.waiting = [])
    (hdue : ∀ m, ¬ ((effect m).due = true ∧ (effect m).phase = .closed)) (hidle : ∀ n : LaneId, (w.lane n).cur = none) :
    ∃ v : Work, z.faultEvent e p = v ∧
      v = { w with
            lanes := v.lanes, nodes := { w.nodes with entries := v.nodes.entries, linger := linger }
            chain := chain, notices := (w.raise .chainFault).notices, port := p } ∧
      (∀ m, v.node m = effect m) ∧ ∀ n : LaneId, v.lane n = (w.lane n).aborted := by
  obtain ⟨v, hv, hframe, hlane, hnode⟩ := h.quiet e p hrest hwaiting hdue fun n c hc => by
    rw [hidle n] at hc; simp at hc
  have hkeeps : ∀ a, (w.lane a).keeps = false := fun a => by simp [Lane.keeps, hidle a]
  have hthaws : ∀ n, w.thaws (fun _ => true) n = false := fun n => by
    unfold Work.thaws
    split
    · simp [Lane.keepsFused, hidle]
    · rfl
  simp only [hkeeps, Bool.not_false, List.filter_true] at hframe
  refine ⟨v, hv, hframe, fun m => ?_, fun n => ?_⟩
  · rw [hnode]; exact NodeEntry.unmarkedFor_none fun a _ => hkeeps a
  · rw [hlane, hthaws, Bool.not_false, Bool.and_true, ← (w.lane n).aborted_frozen_self]

theorem Work.FaultedAs.onePast (h : w.FaultedAs z effect linger chain) {n : LaneId} {c : CurStep} (hp : w.OnePast n c) :
    z.EndsOne (z.faultEvent e p) e n c := by
  have hstate : z.chain.state = .fault := by rw [h.frame]; exact h.state
  have hlane := h.lane
  refine Work.faultEvent_onePast e p hstate (by rw [h.frame]) ⟨?_, hp.past, fun m hm => ?_, hp.host, fun m => ?_, ?_, ?_⟩
  · rw [hlane]; exact hp.cur
  · rw [hlane]; exact hp.alone m hm
  · rw [hlane]; exact hp.room m
  · rw [hlane]; exact hp.thawed
  · rw [h.frame]; exact hp.results

end Faulted

theorem Work.faultEvent_of_port {w : Work} (hs : w.chain.state = .fault) (e : Env) :
    (w.safetyAbort e .chainFault).finish e = w.faultEvent e w.port := by
  have hport : (w.safetyAbort e .chainFault).port = w.port := (Work.safetyAbort_leaves hs e .chainFault).port
  rw [Work.faultEvent, ← hport]

/-- Where no node has a holder or a mark and nothing waits, a chain fault's event leaves the map and the empty queues. -/
theorem Work.faultEvent_bare {w : Work} (e : Env) (p : Port) (hs : w.chain.state = .fault) (hw : w.wake = true)
    (hb : w.nodes.bare) (hq : w.chain.queue = []) (hwaiting : w.chain.waiting = []) (hdue : w.dueNodes = []) :
    (w.faultEvent e p).chain.queue = [] ∧ (w.faultEvent e p).chain.waiting = [] ∧ w.SameMap (w.faultEvent e p) := by
  have hl := Work.safetyAbort_leaves hs e .chainFault
  have hmap := Work.safetyAbort_sameMap hs hb e .chainFault
  have hhalted := Work.safetyAbort_halted hs e .chainFault
  obtain ⟨v, hv⟩ : ∃ v : Work, v = w.safetyAbort e .chainFault := ⟨_, rfl⟩
  rw [← hv] at hl hmap hhalted
  have hvq : v.chain.queue = [] := List.eq_nil_iff_forall_not_mem.2 fun f hf => by
    have : f ∈ w.chain.queue := hl.queue f hf
    simp [hq] at this
  have hvw : v.chain.waiting = [] := List.eq_nil_iff_forall_not_mem.2 fun q hf => by
    have : q ∈ w.chain.waiting := hl.waiting q hf
    simp [hwaiting] at this
  have hvdue : v.dueNodes = [] := by
    rw [Work.dueNodes_eq_nil_iff, hmap.1, ← Work.dueNodes_eq_nil_iff]
    exact hdue
  have hfinish := Work.finish_halted (w := { v with port := p }) hhalted (hl.wake hw) e
  rw [Work.serveSlots_none (by exact hvw) (by exact hvdue)] at hfinish
  rw [Work.faultEvent, ← hv, hfinish]
  exact ⟨hvq, hvw, hmap⟩

/-! ### A frame's shift end -/

theorem insertInflight_between (o : Operation) {t : Time} {pre post : List (Operation × Time)}
    (hpre : ∀ p ∈ pre, earlier t p.2 = false) (hpost : ∀ p, post.head? = some p → earlier t p.2 = true) :
    insertInflight o t (pre ++ post) = pre ++ (o, t) :: post := by
  induction pre with
  | nil =>
    cases post with
    | nil => rfl
    | cons p post => obtain ⟨k, u⟩ := p; simp [insertInflight, hpost (k, u) rfl]
  | cons p pre ih =>
    obtain ⟨k, u⟩ := p
    have hu : earlier t u = false := hpre (k, u) (by simp)
    simp [insertInflight, hu, ih fun p hp => hpre p (by simp [hp])]

/-- The part after the effect of a frame whose mismatch faults the chain (R55). -/
def Work.faultFrame (w : Work) (e : Env) (f : Frame) : Work :=
  let v := w.endFrameShift e f
  ({ v with chain := { v.chain with state := .fault } } : Work).requestUnchecked

theorem Work.faultFrame_eq (w : Work) (e : Env) (f : Frame) :
    w.faultFrame e f =
      { w with
        nodes := (w.faultFrame e f).nodes
        chain :=
          { w.chain with
            state := .fault, queue := w.chain.queue.filter (· != f), shift := none
            requests := [⟨.unchecked, true⟩]
            inflight := insertInflight (e.inflightOf f).1 (e.inflightOf f).2 w.chain.inflight }
        wake := true, freed := true } := by
  have hshifted : ∀ v : Work, v.frameShifted f = { v with nodes := (v.frameShifted f).nodes } := fun v => by
    cases f <;> (unfold Work.frameShifted; dsimp only; split <;> rfl)
  simp only [Work.faultFrame, Work.endFrameShift]
  rw [hshifted]
  rfl

theorem exec_frameShiftEnd_fault {s : State} {f : Frame} {ends : Time} {echo : BitVec 32}
    (hs : s.work.chain.shift = some ⟨.frame f, ends⟩) (ht : reached ends s.clock.time = true)
    (hr : s.work.chain.state = .ready) (hecho : echo ≠ f.word) :
    exec (.frameShiftEnd echo) s =
      .next { s with work := (s.work.faultFrame s.env f).faultEvent s.env s.work.port } := by
  have hstate : (s.work.faultFrame s.env f).chain.state = .fault := by rw [Work.faultFrame_eq]
  have hport : (s.work.faultFrame s.env f).port = s.work.port := by rw [Work.faultFrame_eq]
  have hend := Work.faultEvent_of_port hstate s.env
  rw [hport] at hend
  rw [exec_frameShiftEnd echo hs ht, if_pos ⟨hecho, hr⟩, ← hend]
  rfl

/-- The frame's own effect stands as the chain fault finds the part (R48, R55). -/
theorem Work.faultFrame_faultedAs {w : Work} (e : Env) {f : Frame} (hwf : entriesWf w.nodes.entries)
    (hp : (w.node f.node).phase = f.from) :
    w.FaultedAs (w.faultFrame e f) (fun m => if m = f.node then f.shifted (w.node m) else w.node m) w.nodes.linger
      { w.chain with
        state := .fault, queue := w.chain.queue.filter (· != f), shift := none
        requests := [⟨.unchecked, true⟩]
        inflight := insertInflight (e.inflightOf f).1 (e.inflightOf f).2 w.chain.inflight } := by
  have hnodes : (w.faultFrame e f).nodes = (w.setNode f.node (f.shifted (w.node f.node))).nodes := by
    simp only [Work.faultFrame, Work.endFrameShift_eq w e hp]
    rfl
  refine ⟨?_, ?_, fun m => ?_, rfl⟩
  · have h := w.faultFrame_eq e f
    rw [hnodes] at h ⊢
    exact h
  · rw [hnodes]; exact entriesWf_putEntry hwf _ _
  · rw [Work.node_congr hnodes]
    by_cases hm : m = f.node
    · subst hm; rw [if_pos rfl, Work.node_setNode]
    · rw [if_neg hm, Work.node_setNode_ne _ _ hm]

/-- The event of a frame's mismatch, in every part. -/
theorem Work.faultFrame_leaves (w : Work) (e : Env) (f : Frame) (p : Port) :
    ((w.faultFrame e f).faultEvent e p).chain.state = .fault ∧
      ((w.faultFrame e f).faultEvent e p).chain.requests = [⟨.unchecked, true⟩] ∧
      ((w.faultFrame e f).faultEvent e p).chain.shift = none ∧
      ((w.faultFrame e f).faultEvent e p).chain.inflight =
        insertInflight (e.inflightOf f).1 (e.inflightOf f).2 w.chain.inflight ∧
      ((w.faultFrame e f).faultEvent e p).notices[0] = w.notices[0] ||| 8 ∧
      ((w.faultFrame e f).faultEvent e p).port = p := by
  have hfault := w.faultFrame_eq e f
  obtain ⟨z, hz⟩ : ∃ z : Work, z = w.faultFrame e f := ⟨_, rfl⟩
  rw [← hz] at hfault ⊢
  obtain ⟨hstate, hrequests, hshift, hinflight, hnotices, hport⟩ :=
    Work.faultEvent_leaves (w := z) e p (by rw [hfault]) (by rw [hfault]) (by rw [hfault])
  exact ⟨hstate, hrequests.trans (by rw [hfault]), hshift, hinflight.trans (by rw [hfault]),
    hnotices.trans (by rw [hfault]), hport⟩

/-- The event of a frame's mismatch: the nodes as the frame leaves them, and the frame gone from the queue. -/
theorem Work.faultFrame_effect {w : Work} (e : Env) {f : Frame} (p : Port) (hwf : entriesWf w.nodes.entries)
    (hp : (w.node f.node).phase = f.from) :
    (∀ m, (((w.faultFrame e f).faultEvent e p).node m).phase =
        (if m = f.node then f.shifted (w.node m) else w.node m).phase ∧
      (((w.faultFrame e f).faultEvent e p).node m).bus =
        (if m = f.node then f.shifted (w.node m) else w.node m).bus) ∧
      ((∀ n b, f = .close n b → (n, b) ∉ w.chain.waiting) →
        f ∉ ((w.faultFrame e f).faultEvent e p).chain.queue) := by
  have hfault := w.faultFrame_eq e f
  have hfaulted := w.faultFrame_faultedAs e hwf hp
  obtain ⟨z, hz⟩ : ∃ z : Work, z = w.faultFrame e f := ⟨_, rfl⟩
  rw [← hz] at hfault hfaulted ⊢
  have hstate : z.chain.state = .fault := by rw [hfault]
  have hwake : z.wake = true := by rw [hfault]
  refine ⟨fun m => ?_, fun hnew hmem => ?_⟩
  · rw [← hfaulted.node]
    exact Work.faultEvent_nodes e p hstate hwake hfaulted.wf m
  · rcases Work.faultEvent_queue e p hstate hwake hfaulted.wf hmem with hq | ⟨q, hq, hqf⟩ | ⟨m, hm, hclosed⟩
    · rw [hfault] at hq
      simp at hq
    · rw [hfault] at hq
      exact hnew q.1 q.2 hqf hq
    · subst hm
      rw [hfaulted.node] at hclosed
      simp [Frame.node, Frame.shifted] at hclosed

/-! ### An OPEN_ALL's shift end -/

/-- The chain goes to FAULT; a checked OPEN_ALL has an unchecked one asked for (R56, R57, R63). -/
def Work.faulted (w : Work) (k : OpenAllKind) : Work :=
  { w with
    chain :=
      { w.chain with
        state := .fault, requests := if k = .checked then [⟨.unchecked, true⟩] else w.chain.requests } }

/-- The part after the effect of an OPEN_ALL whose mismatch faults the chain. -/
def Work.faultOpenAll (w : Work) (e : Env) (k : OpenAllKind) : Work := (w.endOpenAllShift e).faulted k

/-- The reply to a CHAIN_RESET that waits, when the OPEN_ALL of start-up or CHAIN_RESET comes back wrong (R63). -/
def Port.faulted (p : Port) (k : OpenAllKind) : Port :=
  if k ≠ .checked ∧ p.awaiting = true then ⟨some ⟨0x13, .chainFault, []⟩, false⟩ else p

theorem Port.faulted_checked (p : Port) : p.faulted .checked = p := if_neg fun h => h.1 rfl

theorem Port.faulted_of_ne (p : Port) {k : OpenAllKind} (h : k ≠ .checked) :
    p.faulted k = if p.awaiting = true then ⟨some ⟨0x13, .chainFault, []⟩, false⟩ else p := by
  simp only [Port.faulted, ne_eq, h, not_false_eq_true, true_and]

/-- A bad echo that faults the chain: the safety abort, and the reply of a CHAIN_RESET behind it. -/
theorem Work.judgeOpenAll_bad (w : Work) (e : Env) {k : OpenAllKind}
    (hk : (k = .checked ∧ w.chain.state = .ready) ∨ k = .startup ∨ k = .chainReset) :
    ∃ v : Work, v = (w.faulted k).safetyAbort e .chainFault ∧
      w.judgeOpenAll e k false = { v with port := v.port.faulted k } := by
  refine ⟨_, rfl, ?_⟩
  rcases hk with ⟨rfl, hr⟩ | rfl | rfl
  · have hfault : w.judgeOpenAll e .checked false = w.chainFault e := by
      simp only [Work.judgeOpenAll, hr, and_self, if_true]
    have hstart : ({ w with chain := { w.chain with state := .fault } } : Work).requestUnchecked = w.faulted .checked := rfl
    rw [Port.faulted_checked, hfault, Work.chainFault, hstart]
  · have hstart : ({ w with chain := { w.chain with state := .fault } } : Work) = w.faulted .startup := rfl
    rw [Port.faulted_of_ne _ (by simp), ← Work.answerReset_eq, ← hstart]
    simp only [Work.judgeOpenAll, Bool.false_eq_true, if_false]
  · have hstart : ({ w with chain := { w.chain with state := .fault } } : Work) = w.faulted .chainReset := rfl
    rw [Port.faulted_of_ne _ (by simp), ← Work.answerReset_eq, ← hstart]
    simp only [Work.judgeOpenAll, Bool.false_eq_true, if_false]

theorem exec_openAllShiftEnd_fault {s : State} {k : OpenAllKind} {ends : Time} {echo : BitVec 32}
    (hs : s.work.chain.shift = some ⟨.openAll k, ends⟩) (ht : reached ends s.clock.time = true) (hecho : echo ≠ openAllWord)
    (hk : (k = .checked ∧ s.work.chain.state = .ready) ∨ k = .startup ∨ k = .chainReset) :
    exec (.openAllShiftEnd echo) s =
      .next { s with work := (s.work.faultOpenAll s.env k).faultEvent s.env (s.work.port.faulted k) } := by
  obtain ⟨v, hv, hjudge⟩ := (s.work.endOpenAllShift s.env).judgeOpenAll_bad s.env hk
  have hport : v.port = s.work.port := by
    rw [hv]
    exact (Work.safetyAbort_leaves (w := s.work.faultOpenAll s.env k) rfl s.env .chainFault).port
  have hevent : (s.work.faultOpenAll s.env k).faultEvent s.env (s.work.port.faulted k) =
      ({ v with port := s.work.port.faulted k } : Work).finish s.env := by
    rw [hv]; rfl
  rw [exec_openAllShiftEnd echo hs ht, decide_eq_false hecho, hjudge, hport, hevent]

section FaultOpenAll

variable (w : Work) (e : Env) (k : OpenAllKind)

theorem Work.faultOpenAll_bare : (w.faultOpenAll e k).nodes.bare := by
  intro p hp
  obtain ⟨q, _, rfl⟩ := List.mem_map.1 (List.mem_filter.1 hp).1
  exact ⟨rfl, rfl⟩

theorem Work.faultOpenAll_dueNodes : (w.faultOpenAll e k).dueNodes = [] :=
  Work.dueNodes_onNodes (w := w) fun p _ => p.2.openedAll_wantsOpen

theorem Work.faultOpenAll_faultedAs (hwf : entriesWf w.nodes.entries) :
    w.FaultedAs (w.faultOpenAll e k) (fun m => (w.node m).openedAll) []
      { w.chain with
        state := .fault, queue := [], waiting := [], shift := none
        requests := if k = .checked then [⟨.unchecked, true⟩] else w.chain.requests
        inflight := [(.openAll, e.now + BitVec.ofNat 32 e.fix.releaseTime)] } :=
  ⟨rfl, entriesWf_mapEntries hwf _, Work.node_onNodes hwf (f := .openedAll) rfl, rfl⟩

/-- The event of an OPEN_ALL's mismatch: its own effect stands, and nothing is left to hand out. -/
theorem Work.faultOpenAll_leaves (p : Port) :
    ((w.faultOpenAll e k).faultEvent e p).chain.state = .fault ∧
      ((w.faultOpenAll e k).faultEvent e p).chain.requests =
        (if k = .checked then [⟨.unchecked, true⟩] else w.chain.requests) ∧
      ((w.faultOpenAll e k).faultEvent e p).chain.shift = none ∧
      ((w.faultOpenAll e k).faultEvent e p).chain.queue = [] ∧
      ((w.faultOpenAll e k).faultEvent e p).chain.waiting = [] ∧
      ((w.faultOpenAll e k).faultEvent e p).chain.inflight =
        [(.openAll, e.now + BitVec.ofNat 32 e.fix.releaseTime)] ∧
      ((w.faultOpenAll e k).faultEvent e p).nodes.linger = [] ∧
      ((w.faultOpenAll e k).faultEvent e p).notices[0] = w.notices[0] ||| 8 ∧
      ((w.faultOpenAll e k).faultEvent e p).port = p ∧
      (entriesWf w.nodes.entries → ∀ m, ((w.faultOpenAll e k).faultEvent e p).node m = (w.node m).openedAll) := by
  have hbare := w.faultOpenAll_bare e k
  have hdue := w.faultOpenAll_dueNodes e k
  have hfaulted := w.faultOpenAll_faultedAs e k
  obtain ⟨z, hz, hstate, hwake, hshift, hqueue, hwaiting⟩ : ∃ z : Work, z = w.faultOpenAll e k ∧
      z.chain.state = .fault ∧ z.wake = true ∧ z.chain.shift = none ∧ z.chain.queue = [] ∧ z.chain.waiting = [] :=
    ⟨_, rfl, rfl, rfl, rfl, rfl, rfl⟩
  have hrequests : z.chain.requests = if k = .checked then [⟨.unchecked, true⟩] else w.chain.requests := by rw [hz]; rfl
  have hinflight : z.chain.inflight = [(.openAll, e.now + BitVec.ofNat 32 e.fix.releaseTime)] := by rw [hz]; rfl
  have hnotices : z.notices[0] = w.notices[0] := by rw [hz]; rfl
  have hlinger : z.nodes.linger = [] := by rw [hz]; rfl
  rw [← hz] at hbare hdue hfaulted ⊢
  obtain ⟨lstate, lrequests, lshift, linflight, lnotices, lport⟩ := Work.faultEvent_leaves e p hstate hwake hshift
  obtain ⟨lqueue, lwaiting, lentries, llinger⟩ := Work.faultEvent_bare e p hstate hwake hbare hqueue hwaiting hdue
  exact ⟨lstate, lrequests.trans hrequests, lshift, lqueue, lwaiting, linflight.trans hinflight, llinger.trans hlinger,
    lnotices.trans (by rw [hnotices]), lport,
    fun hwf m => (congrArg (entryAt · m) lentries).trans ((hfaulted hwf).node m)⟩

end FaultOpenAll

/-! ### The obligation -/

/-- The lane of a pair as a chain fault's event leaves it. -/
theorem Work.EndsOne.others_held {w v : Work} {e : Env} {n : LaneId} {c : CurStep} (h : w.EndsOne v e n c)
    (hpair : c.step.flags.fused = true → n = 0 ∨ n = 2) {m : LaneId} (hm : m ≠ n) :
    v.lane m =
      (if c.step.flags.fused = true ∧ m = n + 1 then
        { (w.lane m).cutLines (decide ((e.cfg m).lineMode = .auto)) c with
          frozen := false, c1 := (w.lane m).c1.stop, c2 := (w.lane m).c2.stop }
      else w.lane m).holdIdle := by
  have hfollower : fusedFollower n c.step = some m ↔ c.step.flags.fused = true ∧ m = n + 1 := by
    unfold fusedFollower followerOf
    split
    · next hf => simp [hf.1, eq_comm]
    · next hf => simp only [reduceCtorEq, false_iff]; exact fun h => hf ⟨h.1, hpair h.1⟩
  rw [h.others m hm]
  by_cases hf : c.step.flags.fused = true ∧ m = n + 1
  · rw [if_pos hf, if_pos (hfollower.2 hf)]
    by_cases hr : (w.lane m).run = .stopped <;>
      simp [Lane.cutAndHeld, Lane.holdIdle, Lane.hold, Lane.cutLines, Lane.pairStopped, hr]
  · rw [if_neg hf, if_neg fun h => hf (hfollower.1 h)]

theorem NodeEntry.unmarkedFor_eq (x : NodeEntry) (p : LaneId → Bool) :
    x.unmarkedFor p =
      { x with
        waiter :=
          match x.waiter with
          | some a => if p a = true then none else some a
          | none => none } := by
  obtain ⟨_, _, _, _, _, waiter⟩ := x
  cases waiter with
  | none => rfl
  | some a => by_cases h : p a = true <;> simp [NodeEntry.unmarkedFor, Option.filter, h]

theorem Lane.aborted_idle {l : Lane} (h : l.cur = none) : l.aborted = l.holdIdle := by simp [Lane.aborted, h]

theorem Work.thaws_all (w : Work) (n : LaneId) :
    w.thaws (fun _ => true) n =
      decide ((n = 1 ∧ (w.lane 0).keepsFused = true) ∨ (n = 3 ∧ (w.lane 2).keepsFused = true)) := by
  fin_cases n <;> simp [Work.thaws, leaderOf]

theorem Work.frozen_after (w : Work) (n : LaneId) :
    ((w.lane n).frozen && !w.thaws (fun _ => true) n) =
      if (n = 1 ∧ (w.lane 0).keepsFused = true) ∨ (n = 3 ∧ (w.lane 2).keepsFused = true) then false
      else (w.lane n).frozen := by
  rw [Work.thaws_all]
  split
  · next h => simp [h]
  · next h => simp [h]

/-- Settles O34: each mismatch is a chain fault's event behind the shift's own effect. -/
theorem mismatchInReadyIsAChainFault : Obligations.MismatchInReadyIsAChainFault := by
  intro s ends echo ht raised keeps keepsFused point hit aborts
  have hhit : hit = Lane.aborted := rfl
  have haborts : ∀ (i : Instr) (z : Work) (effect : Nat → NodeEntry) (linger : List (Nat × Time)) (chain : Chain)
      (port : Port), exec i s = .next { s with work := z.faultEvent s.env port } →
      s.work.FaultedAs z effect linger chain → aborts i effect linger chain port := by
    intro i z effect linger chain port hexec hz
    refine ⟨fun hrest hwaiting hdue hidle => ?_, fun hrest hwaiting hdue hkept hclaims => ?_, ?_⟩
    · obtain ⟨v, hv, hframe, hnode, hlane⟩ := hz.idle s.env port hrest hwaiting hdue hidle
      rw [hv] at hexec
      exact ⟨v, hexec, hframe, hnode, fun n => by rw [hlane, hhit]⟩
    · obtain ⟨v, hv, hframe, hlane, hnode⟩ := hz.quiet s.env port hrest hwaiting hdue fun n c hc => by
        rcases hkept n c hc with hp | hp | hp | hp | ⟨hp, hfull⟩ <;> simp [hp, StepPhase.pastClaim]
        exact hfull
      have horder : (s.work.nodes.order.filter fun a => !(s.work.lane a).keeps) = [] :=
        List.filter_eq_nil_iff.2 fun a ha => by
          have hk : (s.work.lane a).keeps = true := hclaims a ha
          simp [hk]
      rw [hv] at hexec
      rw [horder] at hframe
      refine ⟨v, hexec, hframe, fun n => ?_, fun m => ?_⟩
      · have hafter := hlane n
        rw [Work.frozen_after, ← hhit] at hafter
        exact hafter
      · exact (hnode m).trans (NodeEntry.unmarkedFor_eq _ _)
    · intro n c hc hp halone hpair ho htx hthawed _ hlen auto ended
      have hpast : s.work.OnePast n c := ⟨hc, hp, halone, ho, htx, hthawed, hlen⟩
      have hend := hz.onePast s.env port hpast
      have hl := hz.lane
      refine ⟨_, hexec, ?_, hend.cur, hend.run, hend.unheld, ?_, hend.lines, fun m hm => ?_, fun k => ?_, hend.holds⟩
      · rw [hend.results, show z.results = s.work.results by rw [hz.frame]]
      · rw [hend.tx, hl]
      · have hended : (if c.step.flags.fused = true ∧ m = n + 1 then
            { (s.work.lane m).cutLines (decide ((s.env.cfg m).lineMode = .auto)) c with
              frozen := false, c1 := (s.work.lane m).c1.stop, c2 := (s.work.lane m).c2.stop }
            else s.work.lane m) = ended m := by
          simp only [Lane.cutLines, decide_eq_true_eq]
          rfl
        have hcur : (ended m).cur = none := by
          rw [← hended]
          split <;> exact halone m hm
        rw [hend.others_held hpair hm, hl, hhit, hended, Lane.aborted_idle hcur]
      · rw [hend.holder k, hz.node]
  refine ⟨fun f hs hready hecho => ?_, fun k hs hecho => ?_⟩
  · have hexec := exec_frameShiftEnd_fault hs ht hready hecho
    obtain ⟨hstate, hrequests, hshift, hinflight, hnotices, hport⟩ :=
      s.work.faultFrame_leaves s.env f s.work.port
    refine ⟨⟨_, hexec, hstate, hrequests, hshift, hnotices, hport, ?_⟩, ?_⟩
    · obtain ⟨pre, post, _, hins⟩ :=
        insertInflight_parted (s.env.inflightOf f).1 (s.env.inflightOf f).2 s.work.chain.inflight
      rw [hinflight, hins]
      simp
    · intro entry effect hwf hphase pre post hin hpre hpost
      have hfrom : (s.work.node f.node).phase = f.from := by cases f <;> exact hphase
      have hentry : entry = s.env.inflightOf f := by cases f <;> rfl
      have heffect : effect = fun m => if m = f.node then f.shifted (s.work.node m) else s.work.node m := by
        cases f <;> rfl
      have hins : insertInflight (s.env.inflightOf f).1 (s.env.inflightOf f).2 s.work.chain.inflight =
          pre ++ entry :: post := by
        rw [hin, hentry, insertInflight_between _ (hentry ▸ hpre) (hentry ▸ hpost)]
      have hfaulted := s.work.faultFrame_faultedAs s.env hwf hfrom
      obtain ⟨hnode, hgone⟩ := Work.faultFrame_effect s.env s.work.port hwf hfrom
      rw [hins, ← heffect] at hfaulted
      exact ⟨⟨_, hexec, heffect ▸ hnode, hinflight.trans hins, hgone⟩, haborts _ _ _ _ _ _ hexec hfaulted⟩
  · intro requests port inflight effect
    refine ⟨fun hk => ?_, fun hk => ?_⟩
    · have hexec := exec_openAllShiftEnd_fault hs ht hecho hk
      have hport : port = s.work.port.faulted k := rfl
      have hleaves := s.work.faultOpenAll_leaves s.env k port
      have hfaulted := s.work.faultOpenAll_faultedAs s.env k
      rw [← hport] at hexec
      obtain ⟨z, hz⟩ : ∃ z : Work, z = s.work.faultOpenAll s.env k := ⟨_, rfl⟩
      rw [← hz] at hexec hleaves hfaulted
      exact ⟨⟨_, hexec, hleaves⟩, fun hwf => haborts _ z _ _ _ _ hexec (hfaulted hwf)⟩
    · subst hk
      rw [exec_openAllShiftEnd echo hs ht, exec_openAllShiftEnd openAllWord hs ht]
      rfl

end Sys2Proof.Machine
end

section
/-! PROOFS, family 04_step_records_and_lane_queues.md: the places of a lane queue, over every shared operation. -/

namespace Sys2Proof.Machine

/-! ### Places -/

/-- What stands in for `Work.queuesFit` inside an event: a lane of `A` has a place kept for its step in progress, and no
other lane has a step (R70). -/
structure Work.Places (A : LaneId → Prop) (w : Work) : Prop where
  within : ∀ n : LaneId, (w.lane n).queue.length ≤ Config.laneQueueCap
  kept : ∀ n : LaneId, A n → (w.lane n).queue.length < Config.laneQueueCap
  steps : ∀ (n : LaneId) (c : CurStep), (w.lane n).cur = some c → A n

theorem Lane.length_none {l : Lane} (h : l.cur = none) : l.length = l.queue.length := by simp [Lane.length, h]

theorem Lane.length_some {l : Lane} {c : CurStep} (h : l.cur = some c) : l.length = l.queue.length + 1 := by
  simp [Lane.length, h]

theorem Work.Places.queuesFit {A : LaneId → Prop} {w : Work} (h : w.Places A) : w.queuesFit := by
  intro n
  cases hc : (w.lane n).cur with
  | none => rw [Lane.length_none hc]; exact h.within n
  | some c => rw [Lane.length_some hc]; exact h.kept n (h.steps n c hc)

/-- Between events the lanes that have a step are those with a place kept. -/
theorem Work.queuesFit.places {w : Work} (h : w.queuesFit) : w.Places fun n => (w.lane n).cur ≠ none := by
  refine ⟨fun n => ?_, fun n hn => ?_, fun n c hc => by simp [hc]⟩
  · exact Nat.le_trans (Nat.le_add_right _ _) (h n)
  · obtain ⟨c, hc⟩ := Option.ne_none_iff_exists'.1 hn
    have hfit := h n
    rw [Lane.length_some hc] at hfit
    exact hfit

namespace Work.Places

variable {A : LaneId → Prop} {w : Work}

/-! #### Composition -/

/-- An update that leaves every lane's step and records. -/
theorem of_same (h : w.Places A) {v : Work} (hc : ∀ n : LaneId, (v.lane n).cur = (w.lane n).cur)
    (hq : ∀ n : LaneId, (v.lane n).queue = (w.lane n).queue) : v.Places A :=
  ⟨fun n => hq n ▸ h.within n, fun n hn => hq n ▸ h.kept n hn, fun n c hn => h.steps n c (hc n ▸ hn)⟩

/-- An update that leaves the lanes. -/
theorem of_lanes (h : w.Places A) {v : Work} (hl : v.lanes = w.lanes) : v.Places A := by
  have hlane : ∀ n : LaneId, v.lane n = w.lane n := fun n => congrArg (fun ls : Vector Lane 4 => ls[n.val]) hl
  exact h.of_same (fun n => by rw [hlane]) fun n => by rw [hlane]

theorem foldl {α : Type} {f : Work → α → Work} (hf : ∀ (v : Work) (x : α), v.Places A → (f v x).Places A) (xs : List α)
    (h : w.Places A) : (xs.foldl f w).Places A := by
  induction xs generalizing w with
  | nil => exact h
  | cons x xs ih => exact ih (hf w x h)

theorem foldlPair {α : Type} {f : Work × Bool → α → Work × Bool}
    (hf : ∀ (p : Work × Bool) (x : α), p.1.Places A → (f p x).1.Places A) (xs : List α) {p : Work × Bool}
    (h : p.1.Places A) : (xs.foldl f p).1.Places A := by
  induction xs generalizing p with
  | nil => exact h
  | cons x xs ih => exact ih (hf p x h)

/-! #### Lanes -/

theorem setLane (h : w.Places A) (n : LaneId) (l : Lane) (hq : l.queue.length ≤ (w.lane n).queue.length)
    (hc : ∀ c, l.cur = some c → A n) : (w.setLane n l).Places A := by
  have hlane : ∀ m, (w.setLane n l).lane m = if m = n then l else w.lane m := fun m => by
    by_cases hm : m = n
    · rw [if_pos hm, hm, Work.lane_setLane]
    · rw [if_neg hm, Work.lane_setLane_ne _ _ hm]
  refine ⟨fun m => ?_, fun m hm => ?_, fun m c hm => ?_⟩
  · rw [hlane]; split
    · next hmn => exact Nat.le_trans hq (h.within n)
    · exact h.within m
  · rw [hlane]; split
    · next hmn => exact Nat.lt_of_le_of_lt hq (h.kept n (hmn ▸ hm))
    · exact h.kept m hm
  · rw [hlane] at hm; split at hm
    · next hmn => exact hmn ▸ hc c hm
    · exact h.steps m c hm

theorem onLane (h : w.Places A) (n : LaneId) (f : Lane → Lane)
    (hq : (f (w.lane n)).queue = (w.lane n).queue) (hc : (f (w.lane n)).cur = (w.lane n).cur) : (w.onLane n f).Places A :=
  h.setLane n _ (Nat.le_of_eq (congrArg List.length hq)) fun c hn => h.steps n c (hc ▸ hn)

/-- A step in progress is written where a place is kept for it. -/
theorem setCur (h : w.Places A) {n : LaneId} (hn : A n) (c : Option CurStep) : (w.setCur n c).Places A :=
  h.setLane n _ (Nat.le_refl _) fun _ _ => hn

theorem clearCur (h : w.Places A) (n : LaneId) : (w.setCur n none).Places A :=
  h.setLane n _ (Nat.le_refl _) fun _ hc => nomatch hc

theorem drive (h : w.Places A) (e : Env) (n : LaneId) (src gate : Bool) : (w.drive e n src gate).Places A := by
  unfold Work.drive; split
  · exact h.onLane n _ rfl rfl
  · exact h

theorem driveAll (h : w.Places A) (e : Env) (ns : List LaneId) (src gate : Bool) :
    (w.driveAll e ns src gate).Places A := foldl (fun _ n hv => hv.drive e n src gate) ns h

theorem startWatch (h : w.Places A) (e : Env) (n : LaneId) (r : StepRecord) : (w.startWatch e n r).Places A :=
  h.onLane n _ rfl rfl

theorem stopAll (h : w.Places A) (n : LaneId) : (w.stopAll n).Places A := h.onLane n _ rfl rfl

theorem stopStep (h : w.Places A) (n : LaneId) (r : StepRecord) : (w.stopStep n r).Places A := by
  unfold Work.stopStep; split
  · exact (h.stopAll n).onLane _ _ rfl rfl
  · exact h.stopAll n

theorem startEach (h : w.Places A) (ns : List LaneId) {f : Lane → Lane} (hq : ∀ l, (f l).queue = l.queue)
    (hc : ∀ l, (f l).cur = l.cur) : (w.startEach ns f).Places A :=
  foldl (fun _ n hv => hv.onLane n f (hq _) (hc _)) ns h

theorem endPair (h : w.Places A) (n : LaneId) (r : StepRecord) : (w.endPair n r).Places A := by
  unfold Work.endPair; split
  · exact h.onLane _ _ (by split <;> rfl) (by split <;> rfl)
  · exact h

theorem unfreeze (h : w.Places A) (n : LaneId) (r : StepRecord) : (w.unfreeze n r).Places A := by
  unfold Work.unfreeze; split
  · exact h.onLane _ _ rfl rfl
  · exact h

theorem hunt (h : w.Places A) (n : LaneId) : (w.hunt n).Places A := h.onLane n _ rfl rfl

/-! #### Causes and messages -/

theorem raise (h : w.Places A) (c : Cause) : (w.raise c).Places A := h.of_lanes rfl

theorem reply (h : w.Places A) (e : Byte) (c : ReplyCode) (b : List Byte) : (w.reply e c b).Places A := h.of_lanes rfl

theorem send (h : w.Places A) (n : LaneId) (m : UnitMessage) : (w.send n m).Places A := by
  unfold Work.send; split
  · exact h.onLane n _ rfl rfl
  · exact h.raise _

theorem sendAll (h : w.Places A) (ns : List LaneId) (m : UnitMessage) : (w.sendAll ns m).Places A :=
  foldl (fun _ n hv => hv.send n m) ns h

theorem discardFrame (h : w.Places A) (n : LaneId) : (w.discardFrame n).Places A := (h.hunt n).raise _

theorem noteRemoval (h : w.Places A) (e : Env) (n : LaneId) (a b : Nat) : (w.noteRemoval e n a b).Places A := by
  obtain ⟨k, hk⟩ := w.noteRemoval_notices e n a b
  exact h.of_lanes (by rw [hk])

theorem raiseVerdict (h : w.Places A) (g : LaneConfig) (n : LaneId) (v : Verdict) : (w.raiseVerdict g n v).Places A := by
  obtain ⟨k, hk⟩ := w.raiseVerdict_notices g n v
  exact h.of_lanes (by rw [hk])

theorem enterResult (h : w.Places A) (n : LaneId) (r : ResultRecord) : (w.enterResult n r).Places A := by
  obtain ⟨k, hk⟩ := w.enterResult_notices n r
  exact h.of_lanes (by rw [hk])

/-! #### Nodes and frames -/

theorem releaseStep (h : w.Places A) (e : Env) (n : LaneId) (c : CurStep) : (w.releaseStep e n c).Places A :=
  have hl := (w.releaseStep_releases e n c).lane
  h.of_same (fun m => by rw [hl]) fun m => by rw [hl]

theorem releaseNode (h : w.Places A) (n : Nat) (t : Option Time) : (w.releaseNode n t).Places A :=
  have hl := (w.releaseNode_releases n t).lane
  h.of_same (fun m => by rw [hl]) fun m => by rw [hl]

theorem leaveClaim (h : w.Places A) (n : LaneId) : (w.leaveClaim n).Places A :=
  h.of_same (fun m => by rw [Work.leaveClaim_lane]) fun m => by rw [Work.leaveClaim_lane]

theorem serveSlots (h : w.Places A) : w.serveSlots.Places A := h.of_lanes w.serveSlots_lanes

theorem takeHold (h : w.Places A) (n : LaneId) : (w.takeHold n).Places A := by
  unfold Work.takeHold; split
  · exact h
  · exact h.of_lanes rfl

theorem releaseHold (h : w.Places A) (n : LaneId) : (w.releaseHold n).Places A := by
  unfold Work.releaseHold; split
  · exact h.of_lanes rfl
  · exact h

theorem requestOpenAll (h : w.Places A) : w.requestOpenAll.Places A := by
  unfold Work.requestOpenAll; split
  · exact h.of_lanes rfl
  · exact h

/-! #### The way of a step -/

theorem enterClaim (h : w.Places A) {n : LaneId} (hn : A n) (c : CurStep) : (w.enterClaim n c).Places A :=
  (h.setCur hn (some { c with phase := .claim, resume := none })).of_lanes rfl

theorem consume (h : w.Places A) {n : LaneId} (hn : A n) (c : CurStep) (p : Poster × Byte) : (w.consume n c p).Places A :=
  (h.onLane n _ (by rfl) (by rfl)).enterClaim hn _

theorem postToken (h : w.Places A) (k : Fin 32) (p : Poster × Byte) : (w.postToken k p).Places A := by
  unfold Work.postToken; split
  · exact h
  · split
    · next n _ c hc => exact h.consume (h.steps _ c hc) c p
    · exact h
  · exact h.of_lanes rfl

theorem enterTokenWait (h : w.Places A) (e : Env) {n : LaneId} (hn : A n) (c : CurStep) (k : Fin 32) :
    (w.enterTokenWait e n c k).Places A := by
  unfold Work.enterTokenWait; split
  · next p _ => exact (h.of_lanes (v := { w with tokens := w.tokens.set k.val none }) rfl).consume hn c p
  · exact (h.setCur hn _).startWatch e n _

theorem enterWaits (h : w.Places A) (e : Env) {n : LaneId} (hn : A n) (c : CurStep) : (w.enterWaits e n c).Places A := by
  unfold Work.enterWaits; split
  · exact h.enterTokenWait e hn c _
  · exact h.enterClaim hn c

theorem tryFollow (h : w.Places A) (e : Env) (f : LaneId) : (w.tryFollow e f).Places A := by
  unfold Work.tryFollow; dsimp only; split
  · split
    · have hf : (w.setLane f { w.lane f with run := .following, remembered := some (w.lane f).run }).Places A :=
        h.setLane f _ (Nat.le_refl _) fun c hc => h.steps f c hc
      split
      · next c hc =>
        split
        · exact hf.enterWaits e (hf.steps _ c hc) c
        · exact hf
      · exact hf
    · exact h
  · exact h

theorem enterFuseWait (h : w.Places A) (e : Env) {n : LaneId} (hn : A n) (c : CurStep) :
    (w.enterFuseWait e n c).Places A := ((h.setCur hn _).onLane _ _ (by rfl) (by rfl)).tryFollow e _

theorem afterDelivery (h : w.Places A) (n : LaneId) (b : Bool) : (w.onLane n fun l => l.afterDelivery b).Places A := by
  refine h.onLane n _ ?_ (Lane.afterDelivery_cur _ b)
  unfold Lane.afterDelivery; split
  · rfl
  · split
    · rfl
    · split <;> rfl

theorem deliver (h : w.Places A) (e : Env) (n : LaneId) (c : CurStep) (r : ResultRecord) : (w.deliver e n c r).Places A := by
  have hdone : (if c.step.origin = .unit then (w.enterResult n r).send n (.done c.step.tag r.verdict)
      else w.enterResult n r).Places A := by
    split
    · exact (h.enterResult n r).send n _
    · exact h.enterResult n r
  exact (((((hdone.clearCur n).noteRemoval e n _ _).raiseVerdict _ n _).afterDelivery n _).endPair n _).tryFollow e n

theorem offer (h : w.Places A) (e : Env) (n : LaneId) : (w.offer e n).Places A := by
  unfold Work.offer; split
  · split
    · split
      · exact h.deliver e n _ _
      · exact h
    · exact h
  · exact h

theorem enterDeliver (h : w.Places A) (e : Env) {n : LaneId} (hn : A n) (c : CurStep) (r : ResultRecord) :
    (w.enterDeliver e n c r).Places A := (h.setCur hn _).offer e n

theorem complete (h : w.Places A) (e : Env) {n : LaneId} (hn : A n) (c : CurStep) (v : Verdict) :
    (w.complete e n c v).Places A := ((h.driveAll e _ _ _).releaseStep e n c).enterDeliver e hn c _

theorem startSettle (h : w.Places A) (e : Env) {n : LaneId} (hn : A n) (c : CurStep) : (w.startSettle e n c).1.Places A := by
  have hset := h.setCur hn (some { c with phase := .settle })
  unfold Work.startSettle; dsimp only; split
  · split
    · exact hset.onLane n (fun l => { l with c0 := _ }) rfl rfl
    · exact hset.onLane n (fun l => { l with c0 := _ }) rfl rfl
  · exact hset.onLane n (fun l => { l with c0 := _ }) rfl rfl

theorem enterReadyWait (h : w.Places A) (e : Env) {n : LaneId} (hn : A n) (c : CurStep) :
    (w.enterReadyWait e n c).Places A := (h.setCur hn _).startWatch e n _

/-- What follows the start of a settle continues from the state that the start leaves. -/
theorem afterSettle (h : w.Places A) (e : Env) {n : LaneId} (hn : A n) (c : CurStep) (f : Work → Nat → Bool → Work)
    (hf : ∀ (v : Work) (k : Nat) (b : Bool), v.Places A → (f v k b).Places A) :
    (match w.startSettle e n c with
      | (w, some (captured, capped)) => f w captured capped
      | (w, none) => w).Places A := by
  have hs := h.startSettle e hn c
  split
  · next heq => rw [heq] at hs; exact hf _ _ _ hs
  · next heq => rw [heq] at hs; exact hs

theorem repeatStep (h : w.Places A) (e : Env) {n : LaneId} (hn : A n) (c : CurStep) : (w.repeatStep e n c).Places A :=
  ((h.driveAll e _ _ _).sendAll _ _).afterSettle e hn _ (fun v k b => v.enterReadyWait e n (c.nextAttempt.settled k b))
    fun _ _ _ hv => hv.enterReadyWait e hn _

theorem evaluate (h : w.Places A) (e : Env) {n : LaneId} (hn : A n) (c : CurStep) : (w.evaluate e n c).Places A := by
  unfold Work.evaluate; split
  · exact h
  · dsimp only; split
    · exact h.complete e hn _ _
    · exact h.complete e hn _ _
    · split
      · exact h.complete e hn _ _
      · exact h.repeatStep e hn _

theorem endGate (h : w.Places A) (e : Env) {n : LaneId} (hn : A n) (c : CurStep) : (w.endGate e n c).Places A := by
  have hended := ((h.driveAll e (stepLanes n c.step) true false).releaseHold n).setCur hn (some c.gateEnded)
  unfold Work.endGate; dsimp only; split
  · exact hended.evaluate e hn _
  · exact hended.startWatch e n _

theorem beginGate (h : w.Places A) (e : Env) {n : LaneId} (hn : A n) (c : CurStep) : (w.beginGate e n c).Places A := by
  have hopen : ((w.openGate e n c).setCur n (some (w.gateStep c))).Places A :=
    ((h.driveAll e _ _ _).startEach _ (fun _ => by rfl) fun _ => by rfl).setCur hn _
  have hpost : (((w.openGate e n c).setCur n (some (w.gateStep c))).postGate n c.step).Places A := by
    unfold Work.postGate; split
    · exact hopen.postToken _ _
    · exact hopen
  unfold Work.beginGate; dsimp only; split
  · exact hpost.endGate e hn _
  · exact hpost

theorem endSourceDelay (h : w.Places A) (e : Env) {n : LaneId} (hn : A n) (c : CurStep) :
    (w.endSourceDelay e n c).Places A := by
  unfold Work.endSourceDelay; dsimp only; split
  · split
    · exact (h.takeHold n).beginGate e hn c
    · exact h.takeHold n
  · exact h.beginGate e hn c

theorem beginSource (h : w.Places A) (e : Env) {n : LaneId} (hn : A n) (c : CurStep) : (w.beginSource e n c).Places A := by
  have hopen : (w.openSource e n c).Places A := ((h.setCur hn _).driveAll e _ _ _).startEach _ (fun _ => by rfl) fun _ => by rfl
  unfold Work.beginSource; dsimp only; split
  · exact hopen.endSourceDelay e hn _
  · exact hopen

theorem endSettle (h : w.Places A) (e : Env) {n : LaneId} (hn : A n) (c : CurStep) (k : Nat) (b : Bool) :
    (w.endSettle e n c k b).Places A := by
  unfold Work.endSettle; dsimp only; split
  · exact h.beginSource e hn _
  · exact h.enterReadyWait e hn _

theorem checkSwitch (h : w.Places A) (e : Env) (n : LaneId) : (w.checkSwitch e n).Places A := by
  unfold Work.checkSwitch; split
  · next c hc =>
    split
    · have hn := h.steps n c hc
      exact h.afterSettle e hn c (fun v k b => v.endSettle e n { c with phase := .settle } k b)
        fun _ _ _ hv => hv.endSettle e hn _ _ _
    · exact h
  · exact h

/-! #### The end of an event -/

theorem takeClaim (h : w.Places A) (e : Env) {a : LaneId} (ha : A a) (c : CurStep) : (w.takeClaim e a c).1.Places A := by
  have hnodes : (c.nodes.foldl (fun (w : Work) p => w.takeNode (.lane a) p.1 p.2)
      { w with wake := false, freed := false }).Places A :=
    foldl (fun _ _ hv => hv.of_lanes (Work.takeNode_lanes _ _ _ _)) _ (h.of_lanes rfl)
  have hgrant : (w.grantNodes a c).Places A := (hnodes.leaveClaim a).of_lanes rfl
  have hserved : (if (w.grantNodes a c).freed then (w.grantNodes a c).serveSlots else w.grantNodes a c).Places A := by
    split
    · exact hgrant.serveSlots
    · exact hgrant
  have hmarked : ({ (if (w.grantNodes a c).freed then (w.grantNodes a c).serveSlots else w.grantNodes a c)
      with wake := false, freed := false } : Work).Places A := hserved.of_lanes rfl
  exact ((hmarked.setCur ha _).sendAll _ _).checkSwitch e a

theorem tryClaim (h : w.Places A) (e : Env) (a : LaneId) : (w.tryClaim e a).1.Places A := by
  unfold Work.tryClaim; split
  · next c hc =>
    split
    · dsimp only; split
      · refine foldlPair (fun p n hp => ?_) _ h
        dsimp only; split
        · exact hp.of_lanes rfl
        · split
          · exact hp
          · split
            · exact hp.of_lanes rfl
            · exact hp
      · split
        · exact h
        · exact h.takeClaim e (h.steps a c hc) c
    · exact h
  · exact h

theorem arbitrate (h : w.Places A) (e : Env) (k : Nat) : (w.arbitrate e k).Places A := by
  induction k generalizing w with
  | zero => exact h
  | succ k ih =>
    have hp : (w.pass e).1.Places A := foldlPair (fun p a hp => hp.tryClaim e a) (lanesAfter w.nodes.lastWinner) h
    unfold Work.arbitrate; split
    · next heq => rw [heq] at hp; exact ih hp
    · next heq => rw [heq] at hp; exact hp

theorem finish (h : w.Places A) (e : Env) : (w.finish e).Places A := by
  have hmarks : ({ w with wake := false, freed := false } : Work).Places A := h.of_lanes rfl
  have hdone : (if w.freed then ({ w with wake := false, freed := false } : Work).serveSlots.arbitrate e passBound
      else (({ w with wake := false, freed := false } : Work).arbitrate e passBound).serveSlots).Places A := by
    split
    · exact hmarks.serveSlots.arbitrate e _
    · exact (hmarks.arbitrate e _).serveSlots
  unfold Work.finish; split
  · exact hdone.of_lanes rfl
  · exact h

theorem finishQuiet (h : w.Places A) (e : Env) : (w.finishQuiet e).Places A := by
  refine Work.Places.finish ?_ e
  unfold Work.reportQuiet; split
  · refine foldl (fun v n hv => ?_) _ (h.finish e)
    split
    · next c hc =>
      split
      · exact hv.beginGate e (hv.steps n c hc) c
      · exact hv
    · exact hv
  · exact h.finish e

/-! #### Aborts -/

theorem abortStep (h : w.Places A) (e : Env) {n : LaneId} (hn : A n) (c : CurStep) : (w.abortStep e n c).Places A :=
  (((((h.sendAll _ _).driveAll e _ _ _).stopStep n _).releaseHold n).releaseStep e n c).setCur hn _

theorem keepStep (h : w.Places A) {n : LaneId} (hn : A n) (c : CurStep) (p : ResumePoint) : (w.keepStep n c p).Places A :=
  ((h.stopAll n).setCur hn _).leaveClaim n

theorem abortLane (h : w.Places A) (e : Env) (n : LaneId) : (w.abortLane e n).Places A := by
  unfold Work.abortLane; dsimp only; split
  · split
    · exact h
    · exact h.onLane n _ rfl rfl
  · next c hc =>
    have hn := h.steps n c hc
    split
    · exact (h.abortStep e hn c).onLane n _ rfl rfl
    · split
      · exact h.onLane n _ rfl rfl
      · exact ((h.keepStep hn c _).unfreeze n _).onLane n _ rfl rfl

theorem safetyAbort (h : w.Places A) (e : Env) (c : Cause) : (w.safetyAbort e c).Places A :=
  foldl (fun _ n hv => hv.offer e n) _
    (foldl (fun _ n hv => hv.abortLane e n) _ (h.raise c)).requestOpenAll

theorem chainFault (h : w.Places A) (e : Env) : (w.chainFault e).Places A := by
  have hasked : ({ w with chain := { w.chain with state := .fault } } : Work).requestUnchecked.Places A := h.of_lanes rfl
  exact hasked.safetyAbort e .chainFault

/-! #### Requests and messages at a lane -/

theorem resumeStep (h : w.Places A) (e : Env) {n : LaneId} (hn : A n) (c : CurStep) : (w.resumeStep e n c).Places A := by
  unfold Work.resumeStep; split
  · exact h.enterFuseWait e hn c
  · exact h.enterWaits e hn c
  · exact h.enterClaim hn c
  · exact h

/-- A lane whose step and records stay as its run states change. -/
theorem rerun (h : w.Places A) (n : LaneId) (r : RunState) (q : Option RunState) :
    (w.setLane n { w.lane n with run := r, remembered := q }).Places A :=
  h.setLane n _ (Nat.le_refl _) fun c hc => h.steps n c hc

/-- A lane that GO sets RUNNING. -/
theorem goRunning (h : w.Places A) (e : Env) (n : LaneId) :
    (match (w.lane n).cur with
      | some c => (w.setLane n { w.lane n with run := .running }).resumeStep e n c
      | none => (w.setLane n { w.lane n with run := .running }).tryFollow e n).Places A := by
  have hrun := h.rerun n .running (w.lane n).remembered
  split
  · next c hc => exact hrun.resumeStep e (h.steps n c hc) c
  · exact hrun.tryFollow e n

theorem goLane (h : w.Places A) (e : Env) (n : LaneId) : (w.goLane e n).Places A := by
  unfold Work.goLane; dsimp only; split
  case h_5 | h_6 => exact h
  case h_7 =>
    split
    · exact h.rerun n (w.lane n).run _
    · exact h
  all_goals exact h.goRunning e n

theorem pauseLane (h : w.Places A) (n : LaneId) : (w.pauseLane n).Places A := by
  unfold Work.pauseLane; dsimp only; split
  · split
    · exact h.onLane n _ rfl rfl
    · next c hc =>
      have hn := h.steps n c hc
      split
      · exact ((h.keepStep hn c _).unfreeze n _).onLane n _ rfl rfl
      · exact (h.keepStep hn c _).onLane n _ rfl rfl
      · exact (h.keepStep hn c _).onLane n _ rfl rfl
      · exact h.onLane n _ rfl rfl
      · exact h.onLane n _ rfl rfl
      · exact h.rerun n _ (w.lane n).remembered
  · split
    · exact h.rerun n (w.lane n).run _
    · exact h
  · exact h

theorem cancelLane (h : w.Places A) (e : Env) (n : LaneId) : (w.cancelLane e n).1.Places A := by
  have hempty : (w.onLane n fun l => { l with queue := [] }).Places A :=
    h.setLane n _ (Nat.zero_le _) fun c hc => h.steps n c hc
  unfold Work.cancelLane; dsimp only; split
  · exact hempty.noteRemoval e n _ _
  · next c hc =>
    split
    · exact hempty.noteRemoval e n _ _
    · split
      · exact ((hempty.noteRemoval e n _ _).abortStep e (h.steps n c hc) c).offer e n
      · have hleft := (hempty.stopAll n).leaveClaim n
        have hwoken : (if c.phase = .claim ∨ c.resume = some .claim then
            ({ ((w.onLane n fun l => { l with queue := [] }).stopAll n).leaveClaim n with wake := true } : Work)
            else ((w.onLane n fun l => { l with queue := [] }).stopAll n).leaveClaim n).Places A := by
          split
          · exact hleft.of_lanes rfl
          · exact hleft
        exact (((hwoken.clearCur n).noteRemoval e n _ _).endPair n _).tryFollow e n

theorem takeReady (h : w.Places A) (e : Env) (l : LaneId) (t : BitVec 16) (a : Byte) : (w.takeReady e l t a).Places A := by
  unfold Work.takeReady; dsimp only; split
  · exact h.raise _
  · next c hc =>
    have hn := h.steps _ c hc
    split
    · split
      · exact ((h.setCur hn _).onLane _ _ (by rfl) (by rfl)).beginSource e hn _
      · exact h.setCur hn _
    · exact h.raise _

theorem takeResult (h : w.Places A) (e : Env) (l : LaneId) (t : BitVec 16) (a : Byte) (r : Reading) :
    (w.takeResult e l t a r).Places A := by
  unfold Work.takeResult; dsimp only; split
  · exact h.raise _
  · next c hc =>
    have hn := h.steps _ c hc
    split
    · exact h.setCur hn _
    · split
      · split
        · exact ((h.setCur hn _).onLane _ _ (by rfl) (by rfl)).evaluate e hn _
        · exact h.setCur hn _
      · exact h.raise _

end Work.Places

end Sys2Proof.Machine
end

section
/-! PROOFS, family 04_step_records_and_lane_queues.md: the places of a lane queue, over every command and idle clock;
O8. -/

namespace Sys2Proof.Machine

section Commands

variable {s t : State} {A : LaneId → Prop}

theorem places_of_onWork {f : Work → Work} (h : onWork s f = .next t) (hf : (f s.work).Places A) : t.work.Places A := by
  obtain rfl := Host.Outcome.next.inj h
  exact hf

/-- The same for a command that has written the inputs first. -/
theorem places_of_inputs {inputs : Inputs} {f : Work → Work} (h : onWork { s with inputs } f = .next t)
    (hf : (f s.work).Places A) : t.work.Places A := by
  obtain rfl := Host.Outcome.next.inj h
  exact hf

/-! ### Configuration and readouts -/

theorem execConfigLane_places {lane en fa ta : Byte} {gain : BitVec 16} {offset : BitVec 24} {linger : BitVec 16}
    {low mode : Byte} (h : execConfigLane lane en fa ta gain offset linger low mode s = .next t)
    (hs : s.work.Places A) : t.work.Places A := by
  unfold execConfigLane at h
  dsimp only at h
  split at h
  · next n _ _ _ =>
    split at h
    · obtain rfl := Host.Outcome.next.inj h
      refine Work.Places.reply ?_ _ _ _
      split
      · exact hs.setLane n _ (Nat.le_refl _) fun c hc => hs.steps n c hc
      · exact hs
    · exact places_of_onWork h (hs.reply _ _ _)
  · exact places_of_onWork h (hs.reply _ _ _)

theorem execLoadRegion_places {a : Byte} {b c d : BitVec 16} (h : execLoadRegion a b c d s = .next t)
    (hs : s.work.Places A) : t.work.Places A := by
  unfold execLoadRegion at h
  split at h
  · exact places_of_onWork h (hs.reply _ _ _)
  · split at h
    · obtain rfl := Host.Outcome.next.inj h
      exact hs.reply _ _ _
    · exact places_of_onWork h (hs.reply _ _ _)

theorem execFixtureConfig_places {a b c : BitVec 16} (h : execFixtureConfig a b c s = .next t)
    (hs : s.work.Places A) : t.work.Places A := by
  unfold execFixtureConfig at h
  split at h
  · exact places_of_onWork h (hs.reply _ _ _)
  · split at h
    · exact places_of_onWork h (hs.reply _ _ _)
    · obtain rfl := Host.Outcome.next.inj h
      exact hs.reply _ _ _

theorem execSetMask_places {a : Byte} (h : execSetMask a s = .next t) (hs : s.work.Places A) : t.work.Places A := by
  unfold execSetMask at h
  split at h
  · exact places_of_onWork h (hs.reply _ _ _)
  · obtain rfl := Host.Outcome.next.inj h
    exact hs.reply _ _ _

theorem execReadLane_places {a : Byte} (h : execReadLane a s = .next t) (hs : s.work.Places A) : t.work.Places A := by
  refine places_of_onWork h ?_
  split <;> exact hs.reply _ _ _

theorem execReadRegion_places {a : Byte} (h : execReadRegion a s = .next t) (hs : s.work.Places A) :
    t.work.Places A := by
  refine places_of_onWork h ?_
  split <;> exact hs.reply _ _ _

theorem execReadNode_places {a : BitVec 16} (h : execReadNode a s = .next t) (hs : s.work.Places A) :
    t.work.Places A := by
  refine places_of_onWork h ?_
  split <;> exact hs.reply _ _ _

/-! ### Results, notices and tokens -/

theorem execTakeResults_places {a : Byte} (h : execTakeResults a s = .next t) (hs : s.work.Places A) :
    t.work.Places A := by
  have hleft : ({ s.work with results := s.work.results.drop a.toNat } : Work).Places A := hs.of_lanes rfl
  refine places_of_onWork h ?_
  split
  · exact hs.reply _ _ _
  · refine Work.Places.reply (Work.Places.finish ?_ _) _ _ _
    split
    · exact hleft
    · exact Work.Places.foldl (fun _ n hv => hv.offer _ n) _ hleft

theorem execAckNotice_places (h : execAckNotice s = .next t) (hs : s.work.Places A) : t.work.Places A := by
  refine places_of_onWork h ?_
  split
  · exact hs.of_lanes rfl
  · exact hs.reply _ _ _

theorem execTokenPost_places {a b : Byte} (h : execTokenPost a b s = .next t) (hs : s.work.Places A) :
    t.work.Places A := by
  refine places_of_onWork h ?_
  split
  · exact hs.reply _ _ _
  · split
    · exact hs.reply _ _ _
    · exact ((hs.postToken _ _).finish _).reply _ _ _

theorem execTokenClear_places {a b : Byte} (h : execTokenClear a b s = .next t) (hs : s.work.Places A) :
    t.work.Places A := by
  refine places_of_onWork h ?_
  split
  · exact hs.reply _ _ _
  · exact hs.of_lanes rfl

theorem execTokenRead_places {a b : Byte} (h : execTokenRead a b s = .next t) (hs : s.work.Places A) :
    t.work.Places A := by
  refine places_of_onWork h ?_
  split <;> exact hs.reply _ _ _

/-! ### Nodes -/

theorem Work.Places.holdNode {w : Work} (h : w.Places A) (n : Nat) (b : Fin 20) : (w.holdNode n b).1.Places A := by
  unfold Work.holdNode; dsimp only; split
  iterate 3 exact h
  · split
    · exact h
    · exact h.of_lanes (Work.takeNode_lanes _ _ _ _)

theorem execSetNode_places {a : BitVec 16} {b : Byte} (h : execSetNode a b s = .next t) (hs : s.work.Places A) :
    t.work.Places A := by
  refine places_of_onWork h ?_
  split
  · exact hs.reply _ _ _
  · split
    · exact hs.reply _ _ _
    · split
      · exact hs.reply _ _ _
      · exact ((hs.holdNode _ _).finish _).reply _ _ _

theorem execFreeNode_places {a : BitVec 16} (h : execFreeNode a s = .next t) (hs : s.work.Places A) :
    t.work.Places A := by
  refine places_of_onWork h ?_
  split
  · exact hs.reply _ _ _
  · split
    · exact hs.reply _ _ _
    · exact hs.reply _ _ _
    · exact ((hs.releaseNode _ _).finish _).reply _ _ _

theorem execLingerExpiry_places (h : execLingerExpiry s = .next t) (hs : s.work.Places A) : t.work.Places A := by
  refine places_of_onWork h ?_
  split
  · exact Work.Places.serveSlots (hs.of_lanes rfl)
  · exact hs

/-! ### The relay chain engine -/

theorem execChainReset_places (h : execChainReset s = .next t) (hs : s.work.Places A) : t.work.Places A := by
  refine places_of_onWork h ?_
  split
  · exact hs.reply _ _ _
  · exact hs.of_lanes rfl
  · unfold Work.requestReset; split <;> exact hs.of_lanes rfl

theorem execFrameShiftBegin_places (h : execFrameShiftBegin s = .next t) (hs : s.work.Places A) : t.work.Places A := by
  refine places_of_onWork h ?_
  split
  · split
    · exact hs.of_lanes rfl
    · exact hs
  · exact hs

theorem Work.Places.endFrameShift {w : Work} (h : w.Places A) (e : Env) (f : Frame) : (w.endFrameShift e f).Places A := by
  refine h.of_lanes ?_
  simp only [Work.endFrameShift]; rw [Work.frameShifted_eq]

theorem execFrameShiftEnd_places {a : BitVec 32} (h : execFrameShiftEnd a s = .next t) (hs : s.work.Places A) :
    t.work.Places A := by
  refine places_of_onWork h ?_
  split
  · split
    · refine Work.Places.finish ?_ _
      split
      · exact (hs.endFrameShift _ _).chainFault _
      · exact hs.endFrameShift _ _
    · exact hs
  · exact hs

theorem execShiftAbandonedEnd_places (h : execShiftAbandonedEnd s = .next t) (hs : s.work.Places A) :
    t.work.Places A := by
  refine places_of_onWork h ?_
  split
  · split
    · refine Work.Places.finishQuiet ?_ _
      exact hs.of_lanes rfl
    · exact hs
  · exact hs

theorem execOpenAllShiftBegin_places (h : execOpenAllShiftBegin s = .next t) (hs : s.work.Places A) :
    t.work.Places A := by
  refine places_of_onWork h ?_
  split
  · split
    · exact hs.of_lanes rfl
    · exact hs
  · exact hs

theorem Work.Places.answerReset {w : Work} (h : w.Places A) (c : ReplyCode) : (w.answerReset c).Places A := by
  unfold Work.answerReset; split
  · exact h.reply _ _ _
  · exact h

theorem Work.Places.judgeOpenAll {w : Work} (h : w.Places A) (e : Env) (k : OpenAllKind) (good : Bool) :
    (w.judgeOpenAll e k good).Places A := by
  have hset : ∀ c, ({ w with chain := { w.chain with state := c } } : Work).Places A := fun _ => h.of_lanes rfl
  unfold Work.judgeOpenAll; split
  · exact h
  · split
    · exact h.chainFault e
    · exact h
  all_goals
    split
    · exact (hset _).answerReset _
    · exact ((hset _).safetyAbort e _).answerReset _

theorem execOpenAllShiftEnd_places {a : BitVec 32} (h : execOpenAllShiftEnd a s = .next t) (hs : s.work.Places A) :
    t.work.Places A := by
  have hended : (s.work.endOpenAllShift s.env).Places A := hs.of_lanes rfl
  refine places_of_onWork h ?_
  split
  · split
    · exact (hended.judgeOpenAll _ _ _).finish _
    · exact hs
  · exact hs

theorem execCloseComplete_places (h : execCloseComplete s = .next t) (hs : s.work.Places A) : t.work.Places A := by
  refine places_of_onWork h ?_
  split
  · next n _ =>
    have hclosed : (if (s.work.popInflight.node n).phase = .closing then
        s.work.popInflight.setNode n { s.work.popInflight.node n with phase := .closed }
        else s.work.popInflight).Places A := by
      split <;> exact hs.of_lanes rfl
    refine Work.Places.finishQuiet ?_ _
    split
    · exact hclosed.checkSwitch _ _
    · exact hclosed
  · exact hs

theorem Work.Places.closeOntoTarget {w : Work} (h : w.Places A) (n : Nat) : (w.closeOntoTarget n).Places A := by
  unfold Work.closeOntoTarget; split
  · unfold Work.queueTarget; split <;> exact h.of_lanes rfl
  · exact h

theorem execReleaseComplete_places (h : execReleaseComplete s = .next t) (hs : s.work.Places A) : t.work.Places A := by
  refine places_of_onWork h ?_
  split
  · refine Work.Places.finishQuiet ?_ _
    split
    · refine Work.Places.closeOntoTarget ?_ _
      exact hs.of_lanes rfl
    · exact hs.of_lanes rfl
  · exact hs

theorem execOpenAllComplete_places (h : execOpenAllComplete s = .next t) (hs : s.work.Places A) : t.work.Places A := by
  refine places_of_onWork h ?_
  split
  · refine Work.Places.finishQuiet (Work.Places.foldl (fun _ n hv => hv.closeOntoTarget n) _ ?_) _
    exact hs.of_lanes rfl
  · exact hs

/-! ### Lanes -/

theorem execCancelLane_places {a : Byte} (h : execCancelLane a s = .next t) (hs : s.work.Places A) :
    t.work.Places A := by
  refine places_of_onWork h ?_
  split
  · exact ((hs.cancelLane _ _).finish _).reply _ _ _
  · exact hs.reply _ _ _

theorem execGo_places {a : Byte} (h : execGo a s = .next t) (hs : s.work.Places A) : t.work.Places A := by
  refine places_of_onWork h ?_
  split
  · exact hs.reply _ _ _
  · split
    · exact hs.reply _ _ _
    · exact ((Work.Places.foldl (fun _ n hv => hv.goLane _ n) _ hs).finish _).reply _ _ _

theorem execPause_places {a : Byte} (h : execPause a s = .next t) (hs : s.work.Places A) : t.work.Places A := by
  refine places_of_onWork h ?_
  split
  · exact hs.reply _ _ _
  · exact ((Work.Places.foldl (fun _ n hv => hv.pauseLane n) _ hs).finish _).reply _ _ _

theorem execLineWrite_places {a : Byte} (h : execLineWrite a s = .next t) (hs : s.work.Places A) : t.work.Places A := by
  refine places_of_onWork h (Work.Places.reply (Work.Places.foldl (fun v n hv => ?_) _ hs) _ _ _)
  split
  · exact hv.onLane n _ rfl rfl
  · exact hv

theorem execFixedSettleExpiry_places {n : LaneId} (h : execFixedSettleExpiry n s = .next t) (hs : s.work.Places A) :
    t.work.Places A := by
  refine places_of_onWork h ?_
  split
  · next c hc =>
    split
    · exact ((hs.onLane n _ (by rfl) (by rfl)).endSettle _ (hs.steps n c hc) c _ _).finish _
    · exact hs
  · exact hs

theorem execAdaptiveSettleEnd_places {n : LaneId} (h : execAdaptiveSettleEnd n s = .next t) (hs : s.work.Places A) :
    t.work.Places A := by
  refine places_of_onWork h ?_
  split
  · next c hc =>
    dsimp only; split
    · split
      · exact ((hs.onLane n _ (by rfl) (by rfl)).endSettle _ (hs.steps n c hc) c _ _).finish _
      · exact hs.onLane n _ rfl rfl
    · exact hs
  · exact hs

theorem execSourceDelayExpiry_places {n : LaneId} (h : execSourceDelayExpiry n s = .next t) (hs : s.work.Places A) :
    t.work.Places A := by
  refine places_of_onWork h ?_
  split
  · next c hc =>
    split
    · exact ((hs.startEach _ (fun _ => by rfl) fun _ => by rfl).endSourceDelay _ (hs.steps n c hc) c).finish _
    · exact hs
  · exact hs

theorem execGateExpiry_places {n : LaneId} (h : execGateExpiry n s = .next t) (hs : s.work.Places A) :
    t.work.Places A := by
  refine places_of_onWork h ?_
  split
  · next c hc =>
    split
    · exact ((hs.startEach _ (fun _ => by rfl) fun _ => by rfl).endGate _ (hs.steps n c hc) c).finish _
    · exact hs
  · exact hs

theorem execTokenTimeout_places {n : LaneId} (h : execTokenTimeout n s = .next t) (hs : s.work.Places A) :
    t.work.Places A := by
  refine places_of_onWork h ?_
  split
  · next c hc =>
    split
    · exact ((hs.onLane n _ (by rfl) (by rfl)).enterDeliver _ (hs.steps n c hc) c _).finish _
    · exact hs
  · exact hs

theorem execTimeout_places {n : LaneId} (h : execTimeout n s = .next t) (hs : s.work.Places A) : t.work.Places A := by
  refine places_of_onWork h ?_
  split
  · next c hc =>
    split
    · exact ((((hs.onLane n _ (by rfl) (by rfl)).sendAll _ _).stopStep n _).complete _ (hs.steps n c hc) _ _).finish _
    · exact hs
  · exact hs

/-! ### Safety triggers -/

theorem execSeatingChangeUnseated_places (h : execSeatingChangeUnseated s = .next t) (hs : s.work.Places A) :
    t.work.Places A := by
  have hcut : s.work.abandonClose.Places A := hs.of_lanes rfl
  unfold execSeatingChangeUnseated at h
  dsimp only at h
  split at h
  · exact places_of_inputs h ((hcut.safetyAbort _ _).finish _)
  · obtain rfl := Host.Outcome.next.inj h
    exact hs

theorem execSeatingChangeSeated_places (h : execSeatingChangeSeated s = .next t) (hs : s.work.Places A) :
    t.work.Places A := by
  unfold execSeatingChangeSeated at h
  split at h <;> obtain rfl := Host.Outcome.next.inj h
  · exact hs
  · exact hs.of_lanes rfl

theorem execAbortNEdge_places (h : execAbortNEdge s = .next t) (hs : s.work.Places A) : t.work.Places A := by
  unfold execAbortNEdge at h
  dsimp only at h
  split at h
  · exact places_of_inputs h ((hs.safetyAbort _ _).finish _)
  · obtain rfl := Host.Outcome.next.inj h
    exact hs

theorem execAbortAll_places (h : execAbortAll s = .next t) (hs : s.work.Places A) : t.work.Places A :=
  places_of_onWork h (((hs.safetyAbort _ _).finish _).reply _ _ _)

/-! ### Unit messages and links -/

theorem execUnitGo_places {n : LaneId} (h : execUnitGo n s = .next t) (hs : s.work.Places A) : t.work.Places A := by
  refine places_of_onWork h ?_
  dsimp only; split
  · exact (hs.hunt n).send n _
  · exact (((hs.hunt n).send n _).goLane _ n).finish _

theorem execUnitCancelLane_places {n : LaneId} (h : execUnitCancelLane n s = .next t) (hs : s.work.Places A) :
    t.work.Places A := places_of_onWork h (((hs.hunt n).cancelLane _ n).finish _)

theorem execUnitPause_places {n : LaneId} (h : execUnitPause n s = .next t) (hs : s.work.Places A) :
    t.work.Places A := places_of_onWork h (((hs.hunt n).pauseLane n).finish _)

theorem execReady_places {n : LaneId} {a : BitVec 16} {b : Byte} (h : execReady n a b s = .next t)
    (hs : s.work.Places A) : t.work.Places A := places_of_onWork h (((hs.hunt n).takeReady _ _ _ _).finish _)

theorem execResult_places {n : LaneId} {a : BitVec 16} {b : Byte} {r : BitVec 24} {f : Byte}
    (h : execResult n a b r f s = .next t) (hs : s.work.Places A) : t.work.Places A := by
  refine places_of_onWork h ?_
  split
  · exact hs.discardFrame n
  · exact ((hs.hunt n).takeResult _ _ _ _ _).finish _

theorem execUnitToken_places {n : LaneId} {a b : Byte} (h : execUnitToken n a b s = .next t) (hs : s.work.Places A) :
    t.work.Places A := by
  refine places_of_onWork h ?_
  dsimp only; split
  · exact (hs.hunt n).send n _
  · split
    · exact (hs.hunt n).send n _
    · exact (((hs.hunt n).send n _).postToken _ _).finish _

theorem execLinkFrameDiscarded_places {n : LaneId} {a : Byte} {b : List Byte}
    (h : execLinkFrameDiscarded n a b s = .next t) (hs : s.work.Places A) : t.work.Places A :=
  places_of_onWork h (hs.discardFrame n)

theorem execLinkStopBitError_places {n : LaneId} (h : execLinkStopBitError n s = .next t) (hs : s.work.Places A) :
    t.work.Places A := places_of_onWork h ((hs.onLane n (fun l => { l with arrived := none }) rfl rfl).discardFrame n)

theorem execLinkGapTimeout_places {n : LaneId} (h : execLinkGapTimeout n s = .next t) (hs : s.work.Places A) :
    t.work.Places A := by
  refine places_of_onWork h ?_
  split
  · exact hs.discardFrame n
  · exact hs

theorem execTransmitMessage_places {n : LaneId} (h : execTransmitMessage n s = .next t) (hs : s.work.Places A) :
    t.work.Places A :=
  places_of_onWork h (hs.onLane n _ (by split <;> rfl) (by split <;> rfl))

theorem execTransmitEnd_places {n : LaneId} (h : execTransmitEnd n s = .next t) (hs : s.work.Places A) :
    t.work.Places A :=
  places_of_onWork h (hs.onLane n _ (by split <;> rfl) (by split <;> rfl))

theorem execLinkStartByte_places {n : LaneId} (h : execLinkStartByte n s = .next t) (hs : s.work.Places A) :
    t.work.Places A :=
  places_of_onWork h (hs.onLane n _ (by split <;> rfl) (by split <;> rfl))

/-! ### The commands that empty lanes -/

theorem Work.queuesFit_of_reset {w : Work} (h : ∀ n : LaneId, (w.lane n).length = 0) : w.queuesFit := fun n => by
  rw [h n]; exact Nat.zero_le _

theorem execHardReset_fits (h : execHardReset s = .next t) : t.work.queuesFit := by
  obtain rfl := Host.Outcome.next.inj h
  exact Work.queuesFit_of_reset fun n => congrArg Lane.length (Work.reset_lane n)

theorem execClear_fits (h : execClear s = .next t) : t.work.queuesFit := by
  obtain ⟨v, hv, hlane, -⟩ := clearReturnsTheWorkToItsStart s
  rw [show exec .clear s = .next t from h] at hv
  obtain rfl := Host.Outcome.next.inj hv
  exact Work.queuesFit_of_reset fun n => congrArg Lane.length (hlane n).1

/-! ### The commands that move records -/

/-- A record takes a place that is not kept for a step (R68, R69). -/
theorem Work.append_fits {w : Work} (h : w.queuesFit) {n : LaneId} (hn : (w.lane n).length < Config.laneQueueCap)
    (r : StepRecord) : (w.append n r).queuesFit := fun m => by
  by_cases hm : m = n
  · subst hm
    have hlen : ((w.append m r).lane m).length = (w.lane m).length + 1 := by
      simp [Work.append, Lane.length]; omega
    rw [hlen]; exact hn
  · rw [Work.append, Work.lane_onLane_ne _ _ hm]; exact h m

theorem Work.queuesFit.of_places {w v : Work} (h : w.queuesFit) (hv : ∀ A, w.Places A → v.Places A) : v.queuesFit :=
  (hv _ h.places).queuesFit

theorem execPostStep_fits {a : Byte} {r : List Byte} (h : execPostStep a r s = .next t) (hs : s.work.queuesFit) :
    t.work.queuesFit := by
  obtain rfl := Host.Outcome.next.inj h
  have hreply : ∀ (w : Work) (k : ReplyCode), w.queuesFit → (w.reply 0x01 k []).queuesFit := fun _ _ hw => hw
  dsimp only; split
  · split
    · next hn => exact hreply _ _ (Work.append_fits hs hn _)
    · exact hreply _ _ hs
  · exact hreply _ _ hs

theorem execPost_fits {n : LaneId} {r : List Byte} (h : execPost n r s = .next t) (hs : s.work.queuesFit) :
    t.work.queuesFit := by
  obtain rfl := Host.Outcome.next.inj h
  have hhunt : (s.work.hunt n).queuesFit := hs.of_places fun _ hA => hA.hunt n
  dsimp only; split
  · exact hs.of_places fun _ hA => hA.discardFrame n
  · split
    · exact hhunt.of_places fun _ hA => hA.send n _
    · split
      · next hn => exact (Work.append_fits hhunt hn _).of_places fun _ hA => hA.send n _
      · exact hhunt.of_places fun _ hA => hA.send n _

/-- The head record leaves its place for the step in progress that it becomes (R70). -/
theorem execAdmission_fits {n : LaneId} (h : execAdmission n s = .next t) (hs : s.work.queuesFit) :
    t.work.queuesFit := by
  obtain rfl := Host.Outcome.next.inj h
  dsimp only; split
  · unfold Work.admitHead; split
    · exact hs.of_places fun _ hA => hA.finish _
    · next step rest hq =>
      have hlen : rest.length < Config.laneQueueCap := by
        have hfit := Nat.le_trans (Nat.le_add_right _ _) (hs n)
        rw [hq] at hfit
        exact hfit
      have hplaces := hs.places
      have hpopped : (s.work.onLane n fun l => { l with queue := rest }).Places
          fun m => m = n ∨ (s.work.lane m).cur ≠ none := by
        refine ⟨fun m => ?_, fun m hm => ?_, fun m c hc => ?_⟩ <;> by_cases hmn : m = n
        · subst hmn; rw [Work.lane_onLane]; exact Nat.le_of_lt hlen
        · rw [Work.lane_onLane_ne _ _ hmn]; exact hplaces.within m
        · subst hmn; rw [Work.lane_onLane]; exact hlen
        · rw [Work.lane_onLane_ne _ _ hmn]; exact hplaces.kept m (hm.resolve_left hmn)
        · exact .inl hmn
        · rw [Work.lane_onLane_ne _ _ hmn] at hc; exact .inr (hplaces.steps m c hc)
      have hn : n = n ∨ (s.work.lane n).cur ≠ none := .inl rfl
      refine (Work.Places.finish ?_ _).queuesFit (A := fun m => m = n ∨ (s.work.lane m).cur ≠ none)
      dsimp only; split
      · unfold Work.startStep; split
        · exact hpopped.enterFuseWait _ hn _
        · exact hpopped.enterWaits _ hn _
      · exact hpopped.enterDeliver _ hn _ _
  · exact hs

/-! ### Every command -/

/-- Three commands move records into or inside a lane queue, two empty every lane; any other keeps the places. -/
theorem exec_fits {i : Instr} (h : exec i s = .next t) (hs : s.work.queuesFit) : t.work.queuesFit := by
  cases i with
  | postStep lane r => exact execPostStep_fits h hs
  | post n r => exact execPost_fits h hs
  | admission n => exact execAdmission_fits h hs
  | hardReset => exact execHardReset_fits h
  | clear => exact execClear_fits h
  | hostRequestAbandoned b => obtain rfl := Host.Outcome.next.inj h; exact hs
  | abortNRise => obtain rfl := Host.Outcome.next.inj h; exact hs
  | stableChange n b => obtain rfl := Host.Outcome.next.inj h; exact hs
  | unknownRequestType type body => obtain rfl := Host.Outcome.next.inj h; exact hs
  | cancelLane lane => exact hs.of_places fun _ => execCancelLane_places h
  | go mask => exact hs.of_places fun _ => execGo_places h
  | pause mask => exact hs.of_places fun _ => execPause_places h
  | configLane => exact hs.of_places fun _ => execConfigLane_places h
  | readLane lane => exact hs.of_places fun _ => execReadLane_places h
  | loadRegion => exact hs.of_places fun _ => execLoadRegion_places h
  | readRegion => exact hs.of_places fun _ => execReadRegion_places h
  | fixtureConfig => exact hs.of_places fun _ => execFixtureConfig_places h
  | setNode => exact hs.of_places fun _ => execSetNode_places h
  | freeNode => exact hs.of_places fun _ => execFreeNode_places h
  | readNode => exact hs.of_places fun _ => execReadNode_places h
  | takeResults => exact hs.of_places fun _ => execTakeResults_places h
  | ackNotice => exact hs.of_places fun _ => execAckNotice_places h
  | setMask => exact hs.of_places fun _ => execSetMask_places h
  | tokenPost => exact hs.of_places fun _ => execTokenPost_places h
  | tokenClear token code => exact hs.of_places fun _ => execTokenClear_places (b := code) h
  | tokenRead token code => exact hs.of_places fun _ => execTokenRead_places (b := code) h
  | lineWrite => exact hs.of_places fun _ => execLineWrite_places h
  | abortAll => exact hs.of_places fun _ => execAbortAll_places h
  | chainReset => exact hs.of_places fun _ => execChainReset_places h
  | unitCancelLane => exact hs.of_places fun _ => execUnitCancelLane_places h
  | unitPause => exact hs.of_places fun _ => execUnitPause_places h
  | unitGo => exact hs.of_places fun _ => execUnitGo_places h
  | ready => exact hs.of_places fun _ => execReady_places h
  | result => exact hs.of_places fun _ => execResult_places h
  | unitToken => exact hs.of_places fun _ => execUnitToken_places h
  | linkFrameDiscarded n type body => exact hs.of_places fun _ => execLinkFrameDiscarded_places (a := type) (b := body) h
  | linkStopBitError => exact hs.of_places fun _ => execLinkStopBitError_places h
  | linkGapTimeout => exact hs.of_places fun _ => execLinkGapTimeout_places h
  | transmitMessage => exact hs.of_places fun _ => execTransmitMessage_places h
  | seatingChangeUnseated => exact hs.of_places fun _ => execSeatingChangeUnseated_places h
  | seatingChangeSeated => exact hs.of_places fun _ => execSeatingChangeSeated_places h
  | abortNEdge => exact hs.of_places fun _ => execAbortNEdge_places h
  | frameShiftBegin => exact hs.of_places fun _ => execFrameShiftBegin_places h
  | frameShiftEnd => exact hs.of_places fun _ => execFrameShiftEnd_places h
  | shiftAbandonedEnd => exact hs.of_places fun _ => execShiftAbandonedEnd_places h
  | openAllShiftBegin => exact hs.of_places fun _ => execOpenAllShiftBegin_places h
  | openAllShiftEnd => exact hs.of_places fun _ => execOpenAllShiftEnd_places h
  | closeComplete => exact hs.of_places fun _ => execCloseComplete_places h
  | releaseComplete => exact hs.of_places fun _ => execReleaseComplete_places h
  | openAllComplete => exact hs.of_places fun _ => execOpenAllComplete_places h
  | lingerExpiry => exact hs.of_places fun _ => execLingerExpiry_places h
  | fixedSettleExpiry => exact hs.of_places fun _ => execFixedSettleExpiry_places h
  | adaptiveSettleEnd => exact hs.of_places fun _ => execAdaptiveSettleEnd_places h
  | sourceDelayExpiry => exact hs.of_places fun _ => execSourceDelayExpiry_places h
  | gateExpiry => exact hs.of_places fun _ => execGateExpiry_places h
  | tokenTimeout => exact hs.of_places fun _ => execTokenTimeout_places h
  | timeout => exact hs.of_places fun _ => execTimeout_places h
  | linkStartByte => exact hs.of_places fun _ => execLinkStartByte_places h
  | transmitEnd => exact hs.of_places fun _ => execTransmitEnd_places h

end Commands

theorem advanceClock_fits {s : State} (h : s.work.queuesFit) : (advanceClock s).work.queuesFit := fun n => by
  rw [advanceClock_lane]; exact h n

theorem idle_fits {s : State} (h : s.work.queuesFit) : (idle s).work.queuesFit := by
  unfold idle; split
  · exact advanceClock_fits h
  · exact h

/-- Settles O8: inside an event each lane with a step keeps a place for it (Work.Places), which only an admission takes
and only a post fills, and only where the queue has one. -/
theorem everyStepKeepsQueuesWithin64 : Obligations.EveryStepKeepsQueuesWithin64 := by
  intro s t hs h
  unfold step at h
  split at h
  · exact exec_fits h hs
  · obtain rfl := Host.Outcome.next.inj h
    exact idle_fits hs

end Sys2Proof.Machine
end

section
/-! PROOFS, family 04_step_records_and_lane_queues.md: the fields of a step record and its connection list; O14. -/

namespace Sys2Proof

open Bytes

/-! ### The checks of a record -/

/-- The checks of R67 that stand before the connection list and the tokens. -/
def recordChecks (b : List Byte) : Bool :=
  recordLengthOk b && 2 ≤ declaredCount b && declaredCount b ≤ 16 && (at' b 2).toNat < 32 && (at' b 4).toNat ≤ 15
    && (at' b 18).toNat < 64 && (at' b 31).toNat < 8

/-- The record that an accepted body gives, from its connection list and its tokens. -/
def recordOf (o : Origin) (b : List Byte) (cs : List Connection) (wait post : Option (Fin 32)) : StepRecord :=
  { origin := o, tag := u16At b 0
    flags := ⟨bit (at' b 2) 0, bit (at' b 2) 1, bit (at' b 2) 2, bit (at' b 2) 3, bit (at' b 2) 4⟩
    function := at' b 3, range := at' b 4, stimulus := u24At b 5, connections := cs
    settle := (u16At b 8).toNat, minSettle := (u16At b 10).toNat
    sourceDelay := (u16At b 12).toNat, gateWidth := (u16At b 14).toNat
    watch := if (u16At b 16).toNat = 0 then 1 else (u16At b 16).toNat
    low := parseLimit (bit (at' b 18) 0) (s24At b 19)
    high := parseLimit (bit (at' b 18) 1) (s24At b 22)
    followerLow := parseLimit (bit (at' b 18) 2) (s24At b 25)
    followerHigh := parseLimit (bit (at' b 18) 3) (s24At b 28)
    repeats := min (at' b 31).toNat 3
    waitToken := wait, postToken := post.map (·, at' b 34) }

theorem recordLengthOk_iff {b : List Byte} :
    recordLengthOk b = true ↔ 36 ≤ b.length ∧ b.length = 36 + 3 * declaredCount b := by
  simp [recordLengthOk]

theorem recordChecks_iff {b : List Byte} :
    recordChecks b = true ↔ b.length = 36 + 3 * declaredCount b ∧ 2 ≤ declaredCount b ∧ declaredCount b ≤ 16 ∧
      (at' b 2).toNat < 32 ∧ (at' b 4).toNat ≤ 15 ∧ (at' b 18).toNat < 64 ∧ (at' b 31).toNat < 8 := by
  simp only [recordChecks, Bool.and_eq_true, recordLengthOk_iff, decide_eq_true_eq]
  omega

theorem parseRecord_eq_some {o : Origin} {b : List Byte} {r : StepRecord} :
    parseRecord o b = some r ↔ recordChecks b = true ∧ ∃ cs wait post, parseConnections (b.drop 36) = some cs ∧
      parseToken (bit (at' b 18) 4) (at' b 32) = some wait ∧ parseToken (bit (at' b 18) 5) (at' b 33) = some post ∧
      r = recordOf o b cs wait post := by
  have hdef : parseRecord o b = if recordChecks b then
      match parseConnections (b.drop 36), parseToken (bit (at' b 18) 4) (at' b 32),
          parseToken (bit (at' b 18) 5) (at' b 33) with
      | some cs, some wait, some post => some (recordOf o b cs wait post)
      | _, _, _ => none
    else none := rfl
  rw [hdef]
  split
  · next hb =>
    split
    · next cs wait post hcs hwait hpost => simp [hb, hcs, hwait, hpost, eq_comm]
    · next hnone =>
      refine ⟨fun h => (Option.some_ne_none _ h.symm).elim, fun ⟨_, cs, wait, post, hcs, hwait, hpost, _⟩ => ?_⟩
      exact (hnone cs wait post hcs hwait hpost).elim
  · next hb => simp [hb]

theorem parseRecord_ne_none {o : Origin} {b : List Byte} :
    parseRecord o b ≠ none ↔ recordChecks b = true ∧ parseConnections (b.drop 36) ≠ none ∧
      parseToken (bit (at' b 18) 4) (at' b 32) ≠ none ∧ parseToken (bit (at' b 18) 5) (at' b 33) ≠ none := by
  simp only [Option.ne_none_iff_exists', parseRecord_eq_some]
  constructor
  · rintro ⟨_, hb, cs, wait, post, hcs, hwait, hpost, -⟩
    exact ⟨hb, ⟨cs, hcs⟩, ⟨wait, hwait⟩, ⟨post, hpost⟩⟩
  · rintro ⟨hb, ⟨cs, hcs⟩, ⟨wait, hwait⟩, ⟨post, hpost⟩⟩
    exact ⟨_, hb, cs, wait, post, hcs, hwait, hpost, rfl⟩

/-- The tag and the agreeing length of a record that is not malformed (R67). -/
theorem tag_of_parseRecord {o : Origin} {b : List Byte} {r : StepRecord} (h : parseRecord o b = some r) :
    r.tag = u16At b 0 := by
  obtain ⟨-, cs, wait, post, -, -, -, rfl⟩ := parseRecord_eq_some.1 h
  rfl

theorem recordLengthOk_of_parseRecord {o : Origin} {b : List Byte} {r : StepRecord} (h : parseRecord o b = some r) :
    recordLengthOk b = true := by
  obtain ⟨hb, -⟩ := parseRecord_eq_some.1 h
  obtain ⟨hlen, hcount, -⟩ := recordChecks_iff.1 hb
  exact recordLengthOk_iff.2 ⟨by omega, hlen⟩

/-! ### Tokens -/

theorem bit_eq_true_iff {b : Byte} {i : Nat} : bit b i = true ↔ b.toNat / 2 ^ i % 2 = 1 := by
  rw [bit, ← BitVec.testBit_toNat, Nat.testBit_eq_decide_div_mod_eq, decide_eq_true_eq]

theorem parseToken_ne_none {present : Bool} {b : Byte} :
    parseToken present b ≠ none ↔ (present = true → b.toNat < 32) := by
  unfold parseToken
  split
  · next hp => split <;> simp_all
  · next hp => simp [hp]

theorem parseToken_map_val {present : Bool} {b : Byte} {k : Option (Fin 32)} (h : parseToken present b = some k) :
    k.map Fin.val = if present = true then some b.toNat else none := by
  unfold parseToken at h
  split at h
  · next hp =>
    split at h
    · obtain rfl := Option.some.inj h; simp [hp]
    · cases h
  · next hp => obtain rfl := Option.some.inj h; simp [hp]

/-! ### Connections -/

/-- The codes and the reserved bits of a connection byte that R67 refuses. -/
def badConnection (c : Byte) : Prop := 5 ≤ c.toNat % 8 ∨ 2 ≤ c.toNat / 8 % 4 ∨ 32 ≤ c.toNat

theorem roleOfCode_eq_some {k : Nat} {r : Role} : roleOfCode k = some r ↔ r.index = k := by
  refine ⟨fun h => ?_, fun h => by subst h; cases r <;> rfl⟩
  unfold roleOfCode at h
  split at h <;> cases h <;> rfl

theorem sideOfCode_eq_some {k : Nat} {x : Side} : sideOfCode k = some x ↔ x.code = k := by
  refine ⟨fun h => ?_, fun h => by subst h; cases x <;> rfl⟩
  unfold sideOfCode at h
  split at h <;> cases h <;> rfl

theorem roleOfCode_eq_none {k : Nat} : roleOfCode k = none ↔ 5 ≤ k := by
  unfold roleOfCode
  split
  case h_6 => simp only [imp_false] at *; simp; omega
  all_goals simp

theorem sideOfCode_eq_none {k : Nat} : sideOfCode k = none ↔ 2 ≤ k := by
  unfold sideOfCode
  split
  case h_3 => simp only [imp_false] at *; simp; omega
  all_goals simp

theorem parseConnection_eq_some {hi lo c : Byte} {k : Connection} :
    parseConnection hi lo c = some k ↔ k.role.index = c.toNat % 8 ∧ k.side.code = c.toNat / 8 % 4 ∧ c.toNat < 32 ∧
      k.logical = (u16 hi lo).toNat := by
  rw [← roleOfCode_eq_some, ← sideOfCode_eq_some]
  unfold parseConnection
  split
  · next role side hrole hside =>
    obtain ⟨logical, role', side'⟩ := k
    have hhigh : c.toNat / 32 = 0 ↔ c.toNat < 32 := by omega
    simp only [hrole, hside, hhigh, Option.some.injEq]
    split
    · next hc => simp [hc]; tauto
    · next hc => simp [hc]
  · next hnone => exact ⟨nofun, fun ⟨hrole, hside, _⟩ => (hnone _ _ hrole hside).elim⟩

theorem parseConnection_ne_none {hi lo c : Byte} : parseConnection hi lo c ≠ none ↔ ¬ badConnection c := by
  have hrole : (∃ r, roleOfCode (c.toNat % 8) = some r) ↔ ¬ 5 ≤ c.toNat % 8 := by
    rw [← Option.ne_none_iff_exists', Ne, roleOfCode_eq_none]
  have hside : (∃ x, sideOfCode (c.toNat / 8 % 4) = some x) ↔ ¬ 2 ≤ c.toNat / 8 % 4 := by
    rw [← Option.ne_none_iff_exists', Ne, sideOfCode_eq_none]
  simp only [badConnection, not_or, ← hrole, ← hside, Option.ne_none_iff_exists', parseConnection_eq_some,
    roleOfCode_eq_some, sideOfCode_eq_some]
  constructor
  · rintro ⟨k, hr, hx, hc, -⟩
    exact ⟨⟨_, hr⟩, ⟨_, hx⟩, by omega⟩
  · rintro ⟨⟨r, hr⟩, ⟨x, hx⟩, hc⟩
    exact ⟨⟨_, r, x⟩, hr, hx, by omega, rfl⟩

theorem parseConnections_cons_eq_some {hi lo c : Byte} {rest : List Byte} {cs : List Connection} :
    parseConnections (hi :: lo :: c :: rest) = some cs ↔
      ∃ k ks, parseConnection hi lo c = some k ∧ parseConnections rest = some ks ∧ cs = k :: ks := by
  rw [parseConnections]
  split
  · next k ks hk hks => simp [hk, hks, eq_comm]
  · next hnone => exact ⟨nofun, fun ⟨k, ks, hk, hks, _⟩ => (hnone k ks hk hks).elim⟩

/-- Each byte of the first connection stands before those of the others. -/
theorem at'_cons_cons_cons (hi lo c : Byte) (rest : List Byte) (j : Nat) :
    at' (hi :: lo :: c :: rest) (j + 3) = at' rest j := by simp [at']

theorem at'_drop (b : List Byte) (k j : Nat) : at' (b.drop k) j = at' b (k + j) := by simp [at']

/-- A list of three bytes each is read just when no connection byte is bad. -/
theorem parseConnections_ne_none {n : Nat} {bs : List Byte} (h : bs.length = 3 * n) :
    parseConnections bs ≠ none ↔ ∀ i < n, ¬ badConnection (at' bs (3 * i + 2)) := by
  induction n generalizing bs with
  | zero => simp [List.eq_nil_of_length_eq_zero h, parseConnections]
  | succ n ih =>
    obtain ⟨hi, lo, c, rest, rfl, hrest⟩ : ∃ hi lo c rest, bs = hi :: lo :: c :: rest ∧ rest.length = 3 * n := by
      match bs, h with
      | hi :: lo :: c :: rest, h => exact ⟨hi, lo, c, rest, rfl, by simp at h; omega⟩
    have hsplit : parseConnections (hi :: lo :: c :: rest) ≠ none ↔
        parseConnection hi lo c ≠ none ∧ parseConnections rest ≠ none := by
      simp only [Option.ne_none_iff_exists', parseConnections_cons_eq_some]
      exact ⟨fun ⟨_, k, ks, hk, hks, _⟩ => ⟨⟨k, hk⟩, ks, hks⟩, fun ⟨⟨k, hk⟩, ks, hks⟩ => ⟨_, k, ks, hk, hks, rfl⟩⟩
    have hshift : ∀ i, at' (hi :: lo :: c :: rest) (3 * (i + 1) + 2) = at' rest (3 * i + 2) := fun i =>
      at'_cons_cons_cons hi lo c rest (3 * i + 2)
    rw [hsplit, parseConnection_ne_none, ih hrest, Nat.forall_lt_succ_left]
    simp only [hshift]
    rfl

theorem length_of_parseConnections : ∀ {bs : List Byte} {cs : List Connection}, parseConnections bs = some cs →
    bs.length = 3 * cs.length
  | [], cs, h => by obtain rfl := Option.some.inj h; rfl
  | hi :: lo :: c :: rest, cs, h => by
    obtain ⟨k, ks, -, hks, rfl⟩ := parseConnections_cons_eq_some.1 h
    have hrest := length_of_parseConnections hks
    simp [hrest]; omega
  | [_], _, h => nomatch h
  | [_, _], _, h => nomatch h

/-- Each connection is read from the three bytes at its place. -/
theorem getElem?_of_parseConnections : ∀ {bs : List Byte} {cs : List Connection}, parseConnections bs = some cs →
    ∀ {i : Nat} {k : Connection}, cs[i]? = some k →
      parseConnection (at' bs (3 * i)) (at' bs (3 * i + 1)) (at' bs (3 * i + 2)) = some k
  | [], cs, h, i, k, hk => by obtain rfl := Option.some.inj h; simp at hk
  | hi :: lo :: c :: rest, cs, h, i, k, hk => by
    obtain ⟨k', ks, hk', hks, rfl⟩ := parseConnections_cons_eq_some.1 h
    cases i with
    | zero => obtain rfl := Option.some.inj hk; exact hk'
    | succ i =>
      rw [← getElem?_of_parseConnections hks hk]
      have hshift := at'_cons_cons_cons hi lo c rest
      exact congr (congrArg₂ parseConnection (hshift (3 * i)) (hshift (3 * i + 1))) (hshift (3 * i + 2))
  | [_], _, h, _, _, _ => nomatch h
  | [_, _], _, h, _, _, _ => nomatch h

/-! ### The bytes of a record -/

theorem ofBits_lt (bs : List Bool) : ofBits bs < 2 ^ bs.length := by
  induction bs with
  | nil => simp [ofBits]
  | cons b bs ih =>
    have hb := b.toNat_le
    rw [ofBits, List.length_cons, Nat.pow_succ]
    omega

theorem parseConnection_encode (k : Connection) (h : k.logical < 65536) :
    parseConnection ((BitVec.ofNat 16 k.logical).extractLsb' 8 8) ((BitVec.ofNat 16 k.logical).extractLsb' 0 8)
      (BitVec.ofNat 8 (k.role.index + 8 * k.side.code)) = some k := by
  have hrole : k.role.index < 5 := by cases k.role <;> decide
  have hside : k.side.code < 2 := by cases k.side <;> decide
  rw [parseConnection_eq_some, u16_of16, BitVec.toNat_ofNat, BitVec.toNat_ofNat]
  omega

theorem parseConnections_flatMap {ks : List Connection} (h : ∀ k ∈ ks, k.logical < 65536) :
    parseConnections (ks.flatMap encodeConnection) = some ks := by
  induction ks with
  | nil => rfl
  | cons k ks ih =>
    have hrest := ih fun j hj => h j (List.mem_cons_of_mem k hj)
    exact parseConnections_cons_eq_some.2 ⟨k, ks, parseConnection_encode k (h k List.mem_cons_self), hrest, rfl⟩

theorem toNat_u16_of16 {k : Nat} (h : k < 65536) :
    (u16 ((BitVec.ofNat 16 k).extractLsb' 8 8) ((BitVec.ofNat 16 k).extractLsb' 0 8)).toNat = k := by
  rw [u16_of16, BitVec.toNat_ofNat, Nat.mod_eq_of_lt h]

/-- An optional limit is read back from its three bytes and its presence bit. -/
theorem parseLimit_of24 {v : Option Int} (h : fitsLimit v = true) :
    parseLimit v.isSome (u24 ((BitVec.ofInt 24 (v.getD 0)).extractLsb' 16 8)
      ((BitVec.ofInt 24 (v.getD 0)).extractLsb' 8 8) ((BitVec.ofInt 24 (v.getD 0)).extractLsb' 0 8)).toInt = v := by
  rw [u24_of24]
  cases v with
  | none => rfl
  | some v =>
    have hv : -8388608 ≤ v ∧ v ≤ 8388607 := of_decide_eq_true h
    simp only [parseLimit, Option.isSome_some, if_true, Option.getD_some, Option.some.injEq, BitVec.toInt_ofInt]
    exact Int.bmod_eq_of_le (by omega) (by omega)

theorem parseToken_of8 (k : Option (Fin 32)) :
    parseToken k.isSome (BitVec.ofNat 8 ((k.map Fin.val).getD 0)) = some k := by
  cases k with
  | none => rfl
  | some k =>
    have hk : (BitVec.ofNat 8 k.val).toNat = k.val := by rw [BitVec.toNat_ofNat]; omega
    simp [parseToken, hk]

section Encoded

variable (r : StepRecord)

/-- The first 36 bytes of a record (section 11.6). -/
def recordHead : List Byte :=
  let low := BitVec.ofInt 24 (r.low.getD 0)
  let high := BitVec.ofInt 24 (r.high.getD 0)
  let followerLow := BitVec.ofInt 24 (r.followerLow.getD 0)
  let followerHigh := BitVec.ofInt 24 (r.followerHigh.getD 0)
  [r.tag.extractLsb' 8 8, r.tag.extractLsb' 0 8,
    Machine.flagByte [r.flags.fused, r.flags.quiet, r.flags.releaseNow, r.flags.adaptive, r.flags.coarse],
    r.function, r.range,
    r.stimulus.extractLsb' 16 8, r.stimulus.extractLsb' 8 8, r.stimulus.extractLsb' 0 8,
    (BitVec.ofNat 16 r.settle).extractLsb' 8 8, (BitVec.ofNat 16 r.settle).extractLsb' 0 8,
    (BitVec.ofNat 16 r.minSettle).extractLsb' 8 8, (BitVec.ofNat 16 r.minSettle).extractLsb' 0 8,
    (BitVec.ofNat 16 r.sourceDelay).extractLsb' 8 8, (BitVec.ofNat 16 r.sourceDelay).extractLsb' 0 8,
    (BitVec.ofNat 16 r.gateWidth).extractLsb' 8 8, (BitVec.ofNat 16 r.gateWidth).extractLsb' 0 8,
    (BitVec.ofNat 16 r.watch).extractLsb' 8 8, (BitVec.ofNat 16 r.watch).extractLsb' 0 8,
    Machine.flagByte [r.low.isSome, r.high.isSome, r.followerLow.isSome, r.followerHigh.isSome, r.waitToken.isSome,
      r.postToken.isSome],
    low.extractLsb' 16 8, low.extractLsb' 8 8, low.extractLsb' 0 8,
    high.extractLsb' 16 8, high.extractLsb' 8 8, high.extractLsb' 0 8,
    followerLow.extractLsb' 16 8, followerLow.extractLsb' 8 8, followerLow.extractLsb' 0 8,
    followerHigh.extractLsb' 16 8, followerHigh.extractLsb' 8 8, followerHigh.extractLsb' 0 8,
    BitVec.ofNat 8 r.repeats, BitVec.ofNat 8 ((r.waitToken.map Fin.val).getD 0),
    BitVec.ofNat 8 ((r.postToken.map (·.1.val)).getD 0), (r.postToken.map (·.2)).getD 0,
    BitVec.ofNat 8 r.connections.length]

theorem encodeRecord_eq : encodeRecord r = recordHead r ++ r.connections.flatMap encodeConnection := by
  delta encodeRecord
  simp only [List.append_assoc]
  rfl

theorem recordHead_length : (recordHead r).length = 36 := rfl

theorem at'_encodeRecord {i : Nat} (h : i < 36) : at' (encodeRecord r) i = at' (recordHead r) i := by
  rw [encodeRecord_eq, at', at', List.getD_append _ _ _ _ h]

theorem encodeRecord_drop : (encodeRecord r).drop 36 = r.connections.flatMap encodeConnection := by
  rw [encodeRecord_eq]; exact List.drop_left' (recordHead_length r)

theorem encodeRecord_length : (encodeRecord r).length = 36 + 3 * r.connections.length := by
  have hks : (r.connections.flatMap encodeConnection).length = 3 * r.connections.length := by
    simp [List.length_flatMap, encodeConnection, of16, Nat.mul_comm]
  rw [encodeRecord_eq, List.length_append, recordHead_length, hks]

theorem u16At_encodeRecord {i : Nat} (h : i < 35) : u16At (encodeRecord r) i = u16At (recordHead r) i := by
  rw [u16At, u16At, at'_encodeRecord r (by omega), at'_encodeRecord r (by omega)]

theorem u24At_encodeRecord {i : Nat} (h : i < 34) : u24At (encodeRecord r) i = u24At (recordHead r) i := by
  rw [u24At, u24At, at'_encodeRecord r (by omega), at'_encodeRecord r (by omega), at'_encodeRecord r (by omega)]

theorem bit_flags (i : Nat) : bit (at' (encodeRecord r) 2) i =
    [r.flags.fused, r.flags.quiet, r.flags.releaseNow, r.flags.adaptive, r.flags.coarse].getD i false := by
  rw [at'_encodeRecord r (by decide)]
  exact Machine.getLsbD_flagByte (by simp) i

theorem bit_presence (i : Nat) : bit (at' (encodeRecord r) 18) i =
    [r.low.isSome, r.high.isSome, r.followerLow.isSome, r.followerHigh.isSome, r.waitToken.isSome,
      r.postToken.isSome].getD i false := by
  rw [at'_encodeRecord r (by decide)]
  exact Machine.getLsbD_flagByte (by simp) i

theorem declaredCount_encodeRecord (h : r.connections.length ≤ 16) :
    declaredCount (encodeRecord r) = r.connections.length := by
  have hbyte : at' (recordHead r) 35 = BitVec.ofNat 8 r.connections.length := rfl
  rw [declaredCount, at'_encodeRecord r (by decide), hbyte, BitVec.toNat_ofNat]; omega

theorem nat16_encodeRecord {i k : Nat} (hi : i < 35) (hk : k < 65536)
    (hfield : u16At (recordHead r) i = u16 ((BitVec.ofNat 16 k).extractLsb' 8 8) ((BitVec.ofNat 16 k).extractLsb' 0 8)) :
    (u16At (encodeRecord r) i).toNat = k := by
  rw [u16At_encodeRecord r hi, hfield, toNat_u16_of16 hk]

theorem limit_encodeRecord {i k : Nat} {v : Option Int} (hi : i < 34) (hv : fitsLimit v = true)
    (hfield : u24At (recordHead r) i = u24 ((BitVec.ofInt 24 (v.getD 0)).extractLsb' 16 8)
      ((BitVec.ofInt 24 (v.getD 0)).extractLsb' 8 8) ((BitVec.ofInt 24 (v.getD 0)).extractLsb' 0 8))
    (hbit : bit (at' (encodeRecord r) 18) k = v.isSome) :
    parseLimit (bit (at' (encodeRecord r) 18) k) (s24At (encodeRecord r) i) = v := by
  rw [hbit, s24At, u24At_encodeRecord r hi, hfield, parseLimit_of24 hv]

theorem toNat_repeats (h : r.repeats ≤ 3) : (at' (encodeRecord r) 31).toNat = r.repeats := by
  have hbyte : at' (recordHead r) 31 = BitVec.ofNat 8 r.repeats := rfl
  rw [at'_encodeRecord r (by decide), hbyte, BitVec.toNat_ofNat]; omega

theorem parseToken_wait : parseToken (bit (at' (encodeRecord r) 18) 4) (at' (encodeRecord r) 32) = some r.waitToken := by
  rw [bit_presence, at'_encodeRecord r (by decide)]
  exact parseToken_of8 r.waitToken

theorem parseToken_post : parseToken (bit (at' (encodeRecord r) 18) 5) (at' (encodeRecord r) 33) =
    some (r.postToken.map (·.1)) := by
  rw [bit_presence, at'_encodeRecord r (by decide)]
  have hbyte : at' (recordHead r) 33 = BitVec.ofNat 8 (((r.postToken.map (·.1)).map Fin.val).getD 0) := by
    rw [Option.map_map]; rfl
  have hsome : r.postToken.isSome = (r.postToken.map (·.1)).isSome := (Option.isSome_map ..).symm
  rw [hbyte, ← parseToken_of8 (r.postToken.map (·.1)), ← hsome]; rfl

theorem postToken_encodeRecord : (r.postToken.map (·.1)).map (·, at' (encodeRecord r) 34) = r.postToken := by
  rw [at'_encodeRecord r (by decide)]
  have hbyte : at' (recordHead r) 34 = (r.postToken.map (·.2)).getD 0 := rfl
  rw [hbyte]
  cases r.postToken <;> rfl

theorem recordChecks_encodeRecord (h : r.fits = true) : recordChecks (encodeRecord r) = true := by
  simp only [StepRecord.fits, Bool.and_eq_true, decide_eq_true_eq] at h
  obtain ⟨⟨⟨⟨⟨⟨⟨hmin, hmax⟩, -⟩, hrange, -, -, -, -, -, -, hrepeats⟩, -⟩, -⟩, -⟩, -⟩ := h
  have hbyte : ∀ {bs : List Bool}, (Machine.flagByte bs).toNat < 2 ^ bs.length := fun {bs} =>
    Nat.lt_of_le_of_lt (Nat.mod_le _ _) (ofBits_lt bs)
  have hflags : (at' (encodeRecord r) 2).toNat < 32 := by rw [at'_encodeRecord r (by decide)]; exact hbyte
  have hpresence : (at' (encodeRecord r) 18).toNat < 64 := by rw [at'_encodeRecord r (by decide)]; exact hbyte
  have hlow : (at' (encodeRecord r) 4).toNat ≤ 15 := by rw [at'_encodeRecord r (by decide)]; exact hrange
  rw [recordChecks_iff, declaredCount_encodeRecord r hmax, toNat_repeats r hrepeats]
  exact ⟨encodeRecord_length r, hmin, hmax, hflags, hlow, hpresence, by omega⟩

theorem recordOf_encodeRecord (h : r.fits = true) :
    recordOf r.origin (encodeRecord r) r.connections r.waitToken (r.postToken.map (·.1)) = r := by
  simp only [StepRecord.fits, Bool.and_eq_true, decide_eq_true_eq] at h
  obtain ⟨⟨⟨⟨⟨-, -, hsettle, hmin, hsource, hgate, hpos, hwatch, hrepeats⟩, hlow⟩, hhigh⟩, hflow⟩, hfhigh⟩ := h
  have htag : u16At (encodeRecord r) 0 = r.tag := (u16At_encodeRecord r (by decide)).trans (u16_of16 _)
  have hfun : at' (encodeRecord r) 3 = r.function := at'_encodeRecord r (by decide)
  have hrange : at' (encodeRecord r) 4 = r.range := at'_encodeRecord r (by decide)
  have hstim : u24At (encodeRecord r) 5 = r.stimulus := (u24At_encodeRecord r (by decide)).trans (u24_of24 _)
  have hcap : min r.repeats 3 = r.repeats := Nat.min_eq_left hrepeats
  have hone : r.watch ≠ 0 := by omega
  simp only [recordOf, bit_flags, htag, hfun, hrange, hstim, nat16_encodeRecord r (i := 8) (by decide) hsettle rfl,
    nat16_encodeRecord r (i := 10) (by decide) hmin rfl, nat16_encodeRecord r (i := 12) (by decide) hsource rfl,
    nat16_encodeRecord r (i := 14) (by decide) hgate rfl, nat16_encodeRecord r (i := 16) (by decide) hwatch rfl,
    limit_encodeRecord r (i := 19) (by decide) hlow rfl (bit_presence r 0),
    limit_encodeRecord r (i := 22) (by decide) hhigh rfl (bit_presence r 1),
    limit_encodeRecord r (i := 25) (by decide) hflow rfl (bit_presence r 2),
    limit_encodeRecord r (i := 28) (by decide) hfhigh rfl (bit_presence r 3), toNat_repeats r hrepeats, hcap,
    postToken_encodeRecord, if_neg hone]
  rfl

theorem parseRecord_encodeRecord (h : r.fits = true) : parseRecord r.origin (encodeRecord r) = some r := by
  have hlogical : ∀ k ∈ r.connections, k.logical < 65536 := by
    simp only [StepRecord.fits, Bool.and_eq_true, List.all_eq_true, decide_eq_true_eq] at h
    obtain ⟨⟨⟨⟨⟨⟨-, hlogical⟩, -⟩, -⟩, -⟩, -⟩, -⟩ := h
    exact hlogical
  exact parseRecord_eq_some.2 ⟨recordChecks_encodeRecord r h, r.connections, r.waitToken, r.postToken.map (·.1),
    (congrArg _ (encodeRecord_drop r)).trans (parseConnections_flatMap hlogical), parseToken_wait r, parseToken_post r,
    (recordOf_encodeRecord r h).symm⟩

end Encoded

/-! ### What a record must be, and what it gives -/

theorem parseRecord_eq_none {o : Origin} {b : List Byte} :
    parseRecord o b = none ↔
      (at' b 35).toNat < 2 ∨ 16 < (at' b 35).toNat ∨ b.length ≠ 36 + 3 * (at' b 35).toNat ∨
        32 ≤ (at' b 2).toNat ∨ 16 ≤ (at' b 4).toNat ∨ 64 ≤ (at' b 18).toNat ∨ 8 ≤ (at' b 31).toNat ∨
        ((at' b 18).toNat / 16 % 2 = 1 ∧ 32 ≤ (at' b 32).toNat) ∨
        ((at' b 18).toNat / 32 % 2 = 1 ∧ 32 ≤ (at' b 33).toNat) ∨
        ∃ i, i < (at' b 35).toNat ∧ badConnection (at' b (38 + 3 * i)) := by
  have hconnections : recordChecks b = true → (parseConnections (b.drop 36) ≠ none ↔
      ∀ i < declaredCount b, ¬ badConnection (at' b (38 + 3 * i))) := fun hb => by
    obtain ⟨hlen, -⟩ := recordChecks_iff.1 hb
    have hdrop : (b.drop 36).length = 3 * declaredCount b := by rw [List.length_drop, hlen]; omega
    have hplace : ∀ i, at' (b.drop 36) (3 * i + 2) = at' b (38 + 3 * i) := fun i => by
      rw [at'_drop]; congr 1; omega
    simp only [parseConnections_ne_none hdrop, hplace]
  rw [← not_iff_not]
  change parseRecord o b ≠ none ↔ _
  simp only [parseRecord_ne_none, parseToken_ne_none, bit_eq_true_iff]
  rw [and_congr_right_iff.2 fun hb => and_congr_left_iff.2 fun _ => hconnections hb, recordChecks_iff, declaredCount]
  simp only [not_or, not_and, not_exists, ne_eq, not_not, Nat.not_lt, Nat.not_le]
  constructor
  · rintro ⟨⟨hlen, hmin, hmax, hflags, hrange, hpresence, hrepeats⟩, hks, hwait, hpost⟩
    exact ⟨hmin, hmax, hlen, hflags, by omega, hpresence, hrepeats, hwait, hpost, hks⟩
  · rintro ⟨hmin, hmax, hlen, hflags, hrange, hpresence, hrepeats, hwait, hpost, hks⟩
    exact ⟨⟨hlen, hmin, hmax, hflags, by omega, hpresence, hrepeats⟩, hks, hwait, hpost⟩

/-- Settles O14: reading and laying down the bytes are inverse field by field, and the checks of R67 are those that the
reading makes. -/
theorem stepRecordsReadBackAndClamp : Obligations.StepRecordsReadBackAndClamp := by
  refine ⟨fun r h => parseRecord_encodeRecord r h, fun o b => parseRecord_eq_none, fun o b r h => ?_⟩
  obtain ⟨hb, cs, wait, post, hcs, hwait, hpost, rfl⟩ := parseRecord_eq_some.1 h
  obtain ⟨hlen, hmin, hmax, -, hrange, -, -⟩ := recordChecks_iff.1 hb
  have hcount : declaredCount b = cs.length := by
    have hdrop := length_of_parseConnections hcs
    rw [List.length_drop, hlen] at hdrop
    omega
  rw [hcount] at hlen hmin hmax
  have hpost' : (recordOf o b cs wait post).postToken.map (fun p => (p.1.val, p.2)) =
      if bit (at' b 18) 5 = true then some ((at' b 33).toNat, at' b 34) else none := by
    have hmap : (recordOf o b cs wait post).postToken.map (fun p => (p.1.val, p.2)) =
        (post.map Fin.val).map (·, at' b 34) := by
      simp only [recordOf, Option.map_map]; rfl
    rw [hmap, parseToken_map_val hpost]
    split <;> rfl
  have hconnection : ∀ (i : Nat) (k : Connection), cs[i]? = some k →
      k.logical = (u16At b (36 + 3 * i)).toNat ∧ k.role.index = (at' b (38 + 3 * i)).toNat % 8 ∧
        k.side.code = (at' b (38 + 3 * i)).toNat / 8 % 4 := fun i k hk => by
    have hread := getElem?_of_parseConnections hcs hk
    simp only [at'_drop] at hread
    obtain ⟨hrole, hside, -, hlogical⟩ := parseConnection_eq_some.1 hread
    rw [show 36 + (3 * i + 2) = 38 + 3 * i by omega] at hrole hside
    exact ⟨hlogical, hrole, hside⟩
  have hwatch : 1 ≤ (recordOf o b cs wait post).watch := by
    simp only [recordOf]; split <;> omega
  refine ⟨rfl, hmin, hmax, hlen, hrange, rfl, rfl, rfl, rfl, rfl, rfl, rfl, rfl, rfl, rfl, rfl, rfl, rfl,
    parseToken_map_val hwait, hpost', hconnection, rfl, Nat.min_le_right _ _, rfl, hwatch, rfl, rfl, rfl, rfl⟩

end Sys2Proof
end

section
/-! PROOFS, family 04_step_records_and_lane_queues.md: the two ways to post a record; O22, O23. -/

namespace Sys2Proof.Machine

section Posts

variable {s : State} {n : LaneId} {record : List Byte} {r : StepRecord}

/-! ### POST_STEP -/

theorem exec_postStep_format {lane : Byte} (h : 4 ≤ lane.toNat ∨ parseRecord .host record = none) :
    exec (.postStep lane record) s = .next { s with work := s.work.reply 0x01 .format [] } := by
  change execPostStep lane record s = _
  obtain hlane | hrecord := h
  · simp [execPostStep, laneOf_of_ge hlane]
  · simp [execPostStep, hrecord]

theorem exec_postStep {lane : Byte} (hn : n.val = lane.toNat) (hr : parseRecord .host record = some r) :
    exec (.postStep lane record) s = .next
      { s with
        work := if (s.work.lane n).length < 64 then (s.work.append n r).reply 0x01 .ok []
          else s.work.reply 0x01 .queueFull [] } := by
  change execPostStep lane record s = _
  simp [execPostStep, laneOf_of_val_eq hn, hr]

/-! ### POST -/

/-- A message to a unit, with room in the transmit list or without (R196). -/
theorem Work.send_eq (w : Work) (n : LaneId) (m : UnitMessage) :
    w.send n m = if (w.lane n).tx.length < 32 then w.setLane n { w.lane n with tx := (w.lane n).tx ++ [m] }
      else { w with notices := w.notices.set (n.val + 1) (w.notices[n.val + 1] ||| 16) } := rfl

/-- The answer of a POST, beside the queue that it leaves (R195, R196). -/
theorem Work.send_hunting (w : Work) (n : LaneId) (q : List StepRecord) (m : UnitMessage) :
    (w.setLane n { w.lane n with queue := q, rx := .hunting }).send n m =
      if (w.lane n).tx.length < 32 then
        w.setLane n { w.lane n with queue := q, rx := .hunting, tx := (w.lane n).tx ++ [m] }
      else
        { w.setLane n { w.lane n with queue := q, rx := .hunting } with
          notices := w.notices.set (n.val + 1) (w.notices[n.val + 1] ||| 16) } := by
  simp [Work.send_eq]

theorem Work.append_hunt (w : Work) (n : LaneId) (r : StepRecord) :
    (w.hunt n).append n r = w.setLane n { w.lane n with queue := (w.lane n).queue ++ [r], rx := .hunting } := by
  simp [Work.append, Work.hunt, Work.onLane]

theorem exec_post_discarded (h : recordLengthOk record = false) :
    exec (.post n record) s =
      .next { s with work := (s.work.setLane n { s.work.lane n with rx := .hunting }).raise (.linkError n) } := by
  change execPost n record s = _
  simp [execPost, h, Work.discardFrame, Work.hunt, Work.onLane]

theorem exec_post_malformed (hlen : recordLengthOk record = true) (h : parseRecord .unit record = none) :
    exec (.post n record) s =
      .next { s with work := (s.work.hunt n).send n (.refuse (Bytes.u16At record 0) 0x01) } := by
  change execPost n record s = _
  simp [execPost, hlen, h, ReplyCode.byte]

theorem exec_post_wellFormed (h : parseRecord .unit record = some r) :
    exec (.post n record) s = .next
      { s with
        work := if (s.work.lane n).length < 64 then ((s.work.hunt n).append n r).send n (.accept r.tag)
          else (s.work.hunt n).send n (.refuse r.tag 0x02) } := by
  change execPost n record s = _
  have hlength : ((s.work.hunt n).lane n).length = (s.work.lane n).length := by simp [Work.hunt, Lane.length]
  simp [execPost, recordLengthOk_of_parseRecord h, h, tag_of_parseRecord h, hlength, ReplyCode.byte]

end Posts

/-- Settles O22: the lane byte and the reading of the record decide between the three answers. -/
theorem postStepAppendsAtTheTail : Obligations.PostStepAppendsAtTheTail := by
  refine fun s lane record => ⟨exec_postStep_format, fun n r hn hr => ⟨fun hfull => ?_, fun hroom => ?_⟩⟩
  · rw [exec_postStep hn hr, if_neg (Nat.not_lt.2 hfull)]
  · rw [exec_postStep hn hr, if_pos hroom]; rfl

/-- Settles O23: each outcome is an answer sent from the queue that it leaves. -/
theorem unitPostAppendsAndAccepts : Obligations.UnitPostAppendsAndAccepts := by
  intro s n record
  have hhunt : s.work.hunt n = s.work.setLane n { s.work.lane n with queue := (s.work.lane n).queue, rx := .hunting } := rfl
  refine ⟨exec_post_discarded, fun hlen h => ?_, fun r h hfull => ?_, fun r h hroom => ?_⟩
  · rw [exec_post_malformed hlen h, hhunt, Work.send_hunting]
  · rw [exec_post_wellFormed h, if_neg (Nat.not_lt.2 hfull), hhunt, Work.send_hunting]
  · rw [exec_post_wellFormed h, if_pos hroom, Work.append_hunt, Work.send_hunting]

end Sys2Proof.Machine
end

section
/-! PROOFS, family 04_step_records_and_lane_queues.md: the abort of a step past CLAIM; O59. -/

namespace Sys2Proof.Machine

/-! ### A release beside other lanes and holds -/

/-- The part with other lanes and other quiet holds, which no release looks at (R28). -/
def Work.beside (w : Work) (lanes : Vector Lane 4) (holds : List LaneId) (holdOff : Bool) : Work :=
  { w with lanes, chain := { w.chain with holds, holdOff } }

section Beside

variable (w : Work) (L : Vector Lane 4) (H : List LaneId) (b : Bool)

theorem Work.addLinger_beside (n : Nat) (t : Time) :
    (w.beside L H b).addLinger n t = (w.addLinger n t).beside L H b := by
  have hlinger : (w.beside L H b).nodes.linger = w.nodes.linger := rfl
  unfold Work.addLinger
  rw [hlinger]
  dsimp only
  split
  · split <;> rfl
  · rfl

theorem Work.releaseNode_beside (n : Nat) (t : Option Time) :
    (w.beside L H b).releaseNode n t = (w.releaseNode n t).beside L H b := by
  have hnode : (w.beside L H b).node n = w.node n := rfl
  have hqueued : (w.beside L H b).chain.closeQueued n = w.chain.closeQueued n := rfl
  have hfree : (w.beside L H b).freeNode n = (w.freeNode n).beside L H b := rfl
  rw [Work.releaseNode_eq, Work.releaseNode_eq, hnode, hqueued, hfree]
  split
  · split
    · exact Work.addLinger_beside ..
    · rfl
  · rfl
  · split <;> rfl
  · rfl

theorem Work.releaseStep_beside (e : Env) (n : LaneId) (c : CurStep) :
    (w.beside L H b).releaseStep e n c = (w.releaseStep e n c).beside L H b := by
  unfold Work.releaseStep
  generalize c.nodes = ps
  induction ps generalizing w with
  | nil => rfl
  | cons p ps ih =>
    have hnode : (w.beside L H b).node p.1 = w.node p.1 := rfl
    rw [List.foldl_cons, List.foldl_cons, hnode]
    split
    · rw [Work.releaseNode_beside, ih]
    · exact ih w

end Beside

theorem Work.releaseHold_beside (w : Work) (n : LaneId) :
    ∃ H b, w.releaseHold n = w.beside w.lanes H b := by
  unfold Work.releaseHold
  split
  · exact ⟨_, _, rfl⟩
  · exact ⟨w.chain.holds, w.chain.holdOff, rfl⟩

/-! ### The abort -/

section Abort

variable {w : Work} {e : Env} {n : LaneId} {c : CurStep}

/-- An abort whose messages fit releases the nodes and changes else only lanes and quiet holds (R81). -/
theorem Work.abortStep_beside (htx : ∀ m ∈ stepLanes n c.step, (w.lane m).tx.length < 32) :
    ∃ L H b, w.abortStep e n c = (w.releaseStep e n c).beside L H b := by
  obtain ⟨v, hcut, hv, -, -⟩ := Work.cutOff_lanes e htx
  obtain ⟨H, b, hhold⟩ := v.releaseHold_beside n
  have hstart : v.releaseHold n = w.beside v.lanes H b := by rw [hhold, hv]; rfl
  exact ⟨_, H, b, by rw [Work.abortStep_eq, hcut, hstart, Work.releaseStep_beside]; rfl⟩

theorem Work.Releases.tokens {w v : Work} (h : w.Releases v) : v.tokens = w.tokens := by rw [show v = _ from h]

theorem Work.Releases.notices {w v : Work} (h : w.Releases v) : v.notices = w.notices := by rw [show v = _ from h]

/-- A step FUSED only on lane 0 or 2 has the next lane as its follower (R133). -/
theorem fusedFollower_eq {r : StepRecord} (h : r.flags.fused = true → n = 0 ∨ n = 2) :
    fusedFollower n r = if r.flags.fused = true then some (n + 1) else none := by
  have hnext : ∀ m : LaneId, m = 0 ∨ m = 2 → followerOf m = m + 1 := by decide
  unfold fusedFollower
  by_cases hf : r.flags.fused = true
  · rw [if_pos ⟨hf, h hf⟩, if_pos hf, hnext n (h hf)]
  · rw [if_neg fun hk => hf hk.1, if_neg hf]

end Abort

/-- Settles O59: the messages, lines and channels of the step are cut off on its lanes, and its hold and its nodes are
released beside them. -/
theorem abortedStepIsEndedWhole : Obligations.AbortedStepIsEndedWhole := by
  intro w e n c hc hpair htx htxf
  have hfollower := fusedFollower_eq hpair
  have hroom : ∀ m ∈ stepLanes n c.step, (w.lane m).tx.length < 32 := fun m hm => by
    rcases mem_stepLanes.1 hm with rfl | hm
    · exact htx
    · rw [hfollower] at hm
      split at hm
      · next hf => obtain rfl := Option.some.inj hm; exact htxf hf
      · cases hm
  obtain ⟨v, hcut, -, hlane, hother⟩ := Work.cutOff_lanes e hroom
  obtain ⟨L, H, b, ht⟩ := Work.abortStep_beside (e := e) hroom
  have hreleases := w.releaseStep_releases e n c
  refine ⟨?_, fun hf => ?_, fun m hm hmf => ?_, w.abortStep_holds e n c, w.abortStep_holder e n c, ?_⟩
  · rw [Work.abortStep_lane, hcut, hlane]
    simp only [Lane.cutOff, Lane.stopped, CurStep.aborted, CurStep.toRecord, SideState.next, decide_eq_true_eq]
    rfl
  · have hne : n + 1 ≠ n := (by decide : ∀ m : LaneId, m + 1 ≠ m) n
    rw [Work.abortStep_lane_ne _ _ _ hne, hcut, hother _ hne, hfollower, if_pos hf, if_pos rfl]
    simp only [Lane.cutLines, Lane.pairStopped, decide_eq_true_eq]
    rfl
  · rw [Work.abortStep_lane_ne _ _ _ hm, hcut, hother _ hm, hfollower, if_neg]
    split
    · next hf => exact fun h => hmf hf (Option.some.inj h).symm
    · exact nofun
  · rw [ht]
    exact ⟨rfl, rfl, rfl, hreleases.results, hreleases.tokens, hreleases.notices⟩

end Sys2Proof.Machine
end

section
/-! PROOFS, family 04_step_records_and_lane_queues.md: the admission of a FUSED step; O56. -/

namespace Sys2Proof.Machine

/-! ### A frozen follower -/

section Follow

variable {w : Work} {e : Env} {n f : LaneId}

/-- The lane has no step and is in a run state from which a frozen lane follows (R134). -/
def Lane.mayFollow (l : Lane) : Prop := l.cur = none ∧ (l.run = .running ∨ l.run = .paused ∨ l.run = .stopped)

theorem Work.tryFollow_stays (h : ¬ (w.lane f).mayFollow) : w.tryFollow e f = w := by
  unfold Work.tryFollow
  dsimp only
  split
  · rw [if_neg fun hk => h hk.2]
  · rfl

/-- The follower takes its leader's step out of FUSE_WAIT (R134). -/
theorem Work.tryFollow_follows {c : CurStep} (hpair : leaderOf f = some n) (hne : n ≠ f)
    (hfrozen : (w.lane f).frozen = true) (hmay : (w.lane f).mayFollow) (hc : (w.lane n).cur = some c)
    (hphase : c.phase = .fuseWait) :
    w.tryFollow e f =
      (w.setLane f { w.lane f with run := .following, remembered := some (w.lane f).run }).enterWaits e n c := by
  have hcur : ((w.setLane f { w.lane f with run := .following, remembered := some (w.lane f).run }).lane n).cur = some c := by
    rw [Work.lane_setLane_ne _ _ hne, hc]
  simp only [Work.tryFollow, hpair]
  rw [if_pos ⟨hfrozen, hmay⟩, hcur]
  exact if_pos hphase

/-- Writes to two lanes, in either order. -/
theorem Work.setLane_comm (w : Work) (hne : n ≠ f) (l m : Lane) :
    (w.setLane n l).setLane f m = (w.setLane f m).setLane n l := by
  refine Work.ext_lanes (fun i => ?_) rfl rfl rfl rfl rfl rfl rfl rfl rfl
  by_cases hin : i = n
  · subst hin; simp [Work.lane_setLane_ne _ _ hne]
  · by_cases hif : i = f
    · subst hif; simp [Work.lane_setLane_ne _ _ hin]
    · simp [Work.lane_setLane_ne _ _ hin, Work.lane_setLane_ne _ _ hif]

end Follow

/-! ### The admission -/

section Fused

variable {w : Work} {e : Env} {n f : LaneId} {r : StepRecord} {rest : List StepRecord} {nodes : List (Nat × Fin 20)}

/-- The part in which a FUSED step has just entered FUSE_WAIT, its follower frozen (R134). -/
def Work.fuseWaiting (w : Work) (n f : LaneId) (rest : List StepRecord) (c : CurStep) : Work :=
  (w.setLane n { w.lane n with queue := rest, cur := some { c with phase := .fuseWait } }).setLane f
    { w.lane f with frozen := true }

theorem Work.admitHead_fused (hf : followerOf n = f) (hq : (w.lane n).queue = r :: rest) (hr : r.flags.fused = true)
    (h : admissionCheck e.fix n r = .ok nodes) :
    w.admitHead e n = (w.fuseWaiting n f rest (CurStep.admitted r nodes)).tryFollow e f := by
  have hne : f ≠ n := by rw [← hf]; exact (followerOf_ne n).symm
  simp only [Work.admitHead, hq, h, Work.startStep]
  rw [if_pos (show (CurStep.admitted r nodes).step.flags.fused = true from hr), Work.enterFuseWait, hf]
  simp only [Work.fuseWaiting, Work.onLane, Work.setCur, Work.lane_setLane, Work.setLane_setLane,
    Work.lane_setLane_ne _ _ hne]
  rfl

end Fused

/-- Settles O56: the step enters FUSE_WAIT with its follower frozen, and only a follower that may follow takes it on to
its token wait. -/
theorem fusedStepsFreezeTheirFollower : Obligations.FusedStepsFreezeTheirFollower := by
  intro s n f r rest nodes hpair hrested l m hrun hcur hfrozen hq hfused hcheck free c
  have hfollower : followerOf n = f ∧ leaderOf f = some n ∧ n ≠ f := by
    rcases hpair with ⟨rfl, rfl⟩ | ⟨rfl, rfl⟩ <;> decide
  obtain ⟨hf, hleader, hne⟩ := hfollower
  obtain ⟨u, hu⟩ : ∃ u, u = s.work.fuseWaiting n f rest c := ⟨_, rfl⟩
  have hlanen : u.lane n = { l with queue := rest, cur := some { c with phase := .fuseWait } } := by
    rw [hu, Work.fuseWaiting, Work.lane_setLane_ne _ _ hne, Work.lane_setLane]
  have hlanef : u.lane f = { m with frozen := true } := by rw [hu, Work.fuseWaiting, Work.lane_setLane]
  have hmay : (u.lane f).mayFollow ↔ free := by rw [hlanef]; rfl
  rw [exec_admission hrun hcur hfrozen hq, Work.admitHead_fused hf hq hfused hcheck, ← hu]
  refine ⟨fun hfree => ?_, fun hfree k hk hk' => ?_⟩
  · rw [Work.tryFollow_stays (mt hmay.1 hfree), Work.finish_rested (by rw [hu]; exact hrested.1), hu]
    rfl
  · have hfollow := Work.tryFollow_follows (e := s.env) hleader hne (by rw [hlanef]) (hmay.2 hfree) (by rw [hlanen]) rfl
    rw [hfollow, Work.enterWaits_unposted s.env (k := k) hk rfl (by rw [hu]; exact hk'),
      Work.finish_rested (by rw [hu]; exact hrested.1), Work.onLane, Work.lane_setLane_ne _ _ hne, hlanen, hlanef, hu,
      Work.fuseWaiting, Work.setLane_setLane, Work.setLane_comm _ hne, Work.setLane_setLane, Work.setLane_comm _ hne]
    rfl

end Sys2Proof.Machine
end

section
/-! PROOFS, family 04_step_records_and_lane_queues.md: a reading in RESULT_WAIT, and the delivery with its causes; O54. -/

namespace Sys2Proof.Machine

/-! ### Causes -/

theorem Work.notices_raise (w : Work) (c : Cause) (k : Fin 6) :
    (w.raise c).notices[k.val] = w.notices[k.val] ||| (if k = c.source then c.bit else 0) := by
  by_cases h : k = c.source
  · subst h; rw [if_pos rfl]; exact Vector.getElem_set_self _
  · have hset : (w.raise c).notices[k.val] = w.notices[k.val] :=
      Vector.getElem_set_ne c.source.isLt k.isLt fun hv => h (Fin.ext hv.symm)
    rw [if_neg h, hset]
    exact BitVec.or_zero.symm

/-- A cause that is raised on a condition. -/
theorem Work.notices_raise_if (w : Work) (p : Prop) [Decidable p] (c : Cause) (k : Fin 6) :
    (if p then w.raise c else w).notices[k.val] =
      w.notices[k.val] ||| (if k = c.source then (if p then c.bit else 0) else 0) := by
  by_cases hp : p
  · simp only [if_pos hp, Work.notices_raise]
  · simp only [if_neg hp, ite_self]
    exact BitVec.or_zero.symm

/-- The causes of a record that enters the result queue (R175). -/
def Work.resultCauses (w : Work) : BitVec 5 :=
  (if w.results = [] then 1 else 0) ||| (if w.results.length = 127 then 2 else 0)

/-- The causes of a delivery on its lane's source (R73, R107), from its verdict and the records behind the head. -/
def deliveryCauses (cfg : LaneConfig) (v : Verdict) (left : Nat) : BitVec 5 :=
  (if v = .fail then 1 else 0) ||| (if verdictHalts cfg v = true then 2 else 0) |||
    (if 1 ≤ cfg.lowWater ∧ left = cfg.lowWater then 4 else 0)

theorem Work.notices_enterResult (w : Work) (n : LaneId) (r : ResultRecord) (k : Fin 6) :
    (w.enterResult n r).notices[k.val] = w.notices[k.val] ||| (if k = 5 then w.resultCauses else 0) := by
  have hfull : (w.results ++ [r]).length = 128 ↔ w.results.length = 127 := by simp
  simp only [Work.enterResult, Work.notices_raise_if, Config.resultCap, hfull, List.isEmpty_iff, Work.resultCauses]
  by_cases hk : k = 5
  · simp [Cause.source, Cause.bit, hk, BitVec.or_assoc]
  · simp [Cause.source, hk]

theorem Work.notices_noteRemoval (w : Work) (e : Env) (n : LaneId) (q : Nat) (k : Fin 6) :
    (w.noteRemoval e n (q + 1) q).notices[k.val] = w.notices[k.val] ||| (if k = laneSource n then
      (if 1 ≤ (e.cfg n).lowWater ∧ q = (e.cfg n).lowWater then 4 else 0) else 0) := by
  have hmark : (1 ≤ (e.cfg n).lowWater ∧ (e.cfg n).lowWater < q + 1 ∧ q ≤ (e.cfg n).lowWater) ↔
      1 ≤ (e.cfg n).lowWater ∧ q = (e.cfg n).lowWater := by omega
  simp only [Work.noteRemoval, Work.notices_raise_if, hmark]
  rfl

theorem Work.notices_raiseVerdict (w : Work) (cfg : LaneConfig) (n : LaneId) (v : Verdict) (k : Fin 6) :
    (w.raiseVerdict cfg n v).notices[k.val] = w.notices[k.val] ||| (if k = laneSource n then
      (if v = .fail then 1 else 0) ||| (if verdictHalts cfg v = true then 2 else 0) else 0) := by
  simp only [Work.raiseVerdict, Work.notices_raise_if, Cause.source, Cause.bit]
  by_cases hk : k = laneSource n
  · simp [hk, BitVec.or_assoc]
  · simp [hk]

/-! ### The delivery of a step that is not FUSED -/

/-- DONE to the unit of a step of unit origin (R106). -/
def CurStep.doneMessages (c : CurStep) (v : Verdict) : List UnitMessage :=
  if c.step.origin = .unit then [.done c.step.tag v] else []

/-- The part after the delivery of a step that is not FUSED, field by field, its causes too (R106). -/
structure Work.DeliversWith (w : Work) (e : Env) (n : LaneId) (c : CurStep) (r : ResultRecord) (v : Work) : Prop where
  lane : v.lane n = ({ w.lane n with tx := (w.lane n).tx ++ c.doneMessages r.verdict } : Lane).delivered
    (verdictHalts (e.cfg n) r.verdict)
  others : ∀ m, m ≠ n → v.lane m = w.lane m
  results : v.results = w.results ++ [r]
  nodes : v.nodes = w.nodes
  tokens : v.tokens = w.tokens
  notices : ∀ k : Fin 6, v.notices[k.val] = w.notices[k.val] ||| (if k = 5 then w.resultCauses else 0) |||
    (if k = laneSource n then deliveryCauses (e.cfg n) r.verdict (w.lane n).queue.length else 0)

section Delivery

variable {w : Work} {e : Env} {n : LaneId} {c : CurStep} {r : ResultRecord}

theorem Work.send_done (htx : c.step.origin = .unit → (w.lane n).tx.length < 32) (v : Verdict) :
    (if c.step.origin = .unit then w.send n (.done c.step.tag v) else w) =
      w.onLane n fun l => { l with tx := l.tx ++ c.doneMessages v } := by
  unfold CurStep.doneMessages
  split
  · next ho => exact Work.send_room _ (htx ho)
  · simp only [List.append_nil]
    exact (w.setLane_lane n).symm

theorem Lane.delivered_frozen (l : Lane) (halts : Bool) : (l.delivered halts).frozen = l.frozen := by
  unfold Lane.delivered Lane.afterDelivery; dsimp only; split
  · rfl
  · split
    · rfl
    · split <;> rfl

theorem Work.deliver_single (hf : c.step.flags.fused = false) (hz : (w.lane n).frozen = false)
    (htx : c.step.origin = .unit → (w.lane n).tx.length < 32) : w.DeliversWith e n c r (w.deliver e n c r) := by
  obtain ⟨k₁, hentered⟩ := w.enterResult_notices n r
  have hentry := w.notices_enterResult n r
  obtain ⟨u, hu⟩ : ∃ u, u = w.enterResult n r := ⟨_, rfl⟩
  rw [← hu] at hentered hentry
  have hulane : ∀ m, u.lane m = w.lane m := fun m => by rw [hentered]; rfl
  obtain ⟨x, hx⟩ : ∃ x, x = u.onLane n fun l => { l with tx := l.tx ++ c.doneMessages r.verdict } := ⟨_, rfl⟩
  have hxqueue : (x.lane n).queue = (w.lane n).queue := by rw [hx, Work.lane_onLane, hulane]
  obtain ⟨k₂, hnoted⟩ := (x.setCur n none).noteRemoval_notices e n ((w.lane n).queue.length + 1) (w.lane n).queue.length
  have hnote := (x.setCur n none).notices_noteRemoval e n (w.lane n).queue.length
  obtain ⟨k₃, hraised⟩ := ({ x.setCur n none with notices := k₂ } : Work).raiseVerdict_notices (e.cfg n) n r.verdict
  have hraise := ({ x.setCur n none with notices := k₂ } : Work).notices_raiseVerdict (e.cfg n) n r.verdict
  rw [hnoted] at hnote
  rw [hraised] at hraise
  obtain ⟨y, hy⟩ : ∃ y : Work, y = ({ x.setCur n none with notices := k₃ } : Work).onLane n fun l =>
      l.afterDelivery (verdictHalts (e.cfg n) r.verdict) := ⟨_, rfl⟩
  have hylane : y.lane n = ({ w.lane n with tx := (w.lane n).tx ++ c.doneMessages r.verdict } : Lane).delivered
      (verdictHalts (e.cfg n) r.verdict) := by
    have hset : ({ x.setCur n none with notices := k₃ } : Work).lane n = (x.setCur n none).lane n := rfl
    rw [hy, Work.lane_onLane, hset, Work.lane_setCur, hx, Work.lane_onLane, hulane]; rfl
  have hdeliver : w.deliver e n c r = y := by
    rw [Work.deliver, ← hu, Work.send_done (by rw [hulane]; exact htx), ← hx]
    rw [hxqueue, Nat.add_sub_cancel, hnoted, hraised, ← hy, Work.endPair_single _ hf, Work.tryFollow_unfrozen e (by
      rw [hylane, Lane.delivered_frozen]; exact hz)]
  rw [hdeliver]
  refine ⟨hylane, fun m hm => ?_, ?_, ?_, ?_, fun k => ?_⟩
  · have hset : ({ x.setCur n none with notices := k₃ } : Work).lane m = (x.setCur n none).lane m := rfl
    rw [hy, Work.lane_onLane_ne _ _ hm, hset, Work.lane_setCur_ne _ _ hm, hx, Work.lane_onLane_ne _ _ hm, hulane]
  · rw [hy, hx, hentered]; rfl
  · rw [hy, hx, hentered]; rfl
  · rw [hy, hx, hentered]; rfl
  · have hxnotices : (x.setCur n none).notices = u.notices := by rw [hx]; rfl
    have hynotices : y.notices = k₃ := by rw [hy]; rfl
    have hone := hraise k
    have htwo := hnote k
    dsimp only at hone htwo
    rw [hynotices, hone, htwo, hxnotices, hentry, deliveryCauses]
    by_cases hk : k = laneSource n
    · simp only [if_pos hk]; ac_rfl
    · simp [hk]

theorem Work.enterDeliver_single (hf : c.step.flags.fused = false) (hz : (w.lane n).frozen = false)
    (htx : c.step.origin = .unit → (w.lane n).tx.length < 32) (hlen : w.results.length < 128) :
    w.DeliversWith e n c r (w.enterDeliver e n c r) := by
  obtain ⟨d, hd⟩ : ∃ d : CurStep, d = { c with phase := .deliver, resume := none, record := some r } := ⟨_, rfl⟩
  have hoffer : (w.setCur n (some d)).offer e n = (w.setCur n (some d)).deliver e n d r :=
    Work.offer_delivers e (by simp) (by rw [hd]) (by rw [hd]) hlen
  have hdone : d.doneMessages = c.doneMessages := by rw [hd]; rfl
  have h := Work.deliver_single (w := w.setCur n (some d)) (e := e) (n := n) (c := d) (r := r) (by rw [hd]; exact hf)
    (by simpa using hz) (by rw [hd]; simpa using htx)
  rw [Work.enterDeliver, ← hd, hoffer]
  refine ⟨?_, fun m hm => ?_, h.results, h.nodes, h.tokens, fun k => ?_⟩
  · rw [h.lane, hdone, Work.lane_setCur]; rfl
  · rw [h.others m hm, Work.lane_setCur_ne _ _ hm]
  · rw [h.notices k, Work.lane_setCur]; rfl

end Delivery

/-! ### The reading -/

/-- The step after the evaluation of its only side (R101, R164). -/
def CurStep.judged (c : CurStep) (e : Env) (n : LaneId) (r : Reading) : CurStep :=
  let x := evaluateReading (e.cfg n) c.step.low c.step.high r
  { c with
    leader := { c.leader with reading := some r, value := x.1, raw := some r.raw }
    attemptsUsed := c.attemptsUsed + 1, saturated := x.2.1 }

/-- The outcome of the attempt of a step that is not FUSED (R101). -/
def CurStep.outcome (c : CurStep) (e : Env) (n : LaneId) (r : Reading) : AttemptOutcome :=
  (evaluateReading (e.cfg n) c.step.low c.step.high r).2.2

/-- The verdict of a step that completes with an outcome (R101). -/
def AttemptOutcome.verdict : AttemptOutcome → Verdict
  | .pass => .pass
  | .fail => .fail
  | .unitFault => .unitFault

/-- The lane when a RESULT in RESULT_WAIT has been taken (R100). -/
def Lane.reading (l : Lane) (c : CurStep) (r : Reading) : Lane :=
  { l with rx := .hunting, c3 := l.c3.stop, cur := some { c with leader := { c.leader with reading := some r } } }

section Reading

variable {s : State} {w : Work} {e : Env} {n : LaneId} {c : CurStep} {r : Reading}

theorem exec_result_taken {attempt flag : Byte} {raw : BitVec 24} {f : ReadingFlag} (hflag : readingFlagOf flag = some f)
    (hattempt : attempt.toNat = c.attempt) (hrun : (s.work.lane n).run ≠ .following) (hc : (s.work.lane n).cur = some c)
    (hp : c.phase = .resultWait) (hf : c.step.flags.fused = false) (hr : c.leader.reading = none) :
    exec (.result n c.step.tag attempt raw flag) s =
      .next
        { s with
          work := ((s.work.onLane n fun l => l.reading c ⟨raw.toInt, f⟩).evaluate s.env n
            { c with leader := { c.leader with reading := some ⟨raw.toInt, f⟩ } }).finish s.env } := by
  change execResult n c.step.tag attempt raw flag s = _
  have howner : (s.work.hunt n).owner n = (n, false) := by
    have hhunt : ((s.work.hunt n).lane n).run ≠ .following := by simpa [Work.hunt] using hrun
    unfold Work.owner
    split
    · next h _ => exact absurd h hhunt
    · rfl
  have hcur : ((s.work.hunt n).lane n).cur = some c := by simpa [Work.hunt] using hc
  simp only [execResult, onWork_eq, hflag, Work.takeResult, howner, hcur]
  simp [CurStep.matches, hattempt, hp, CurStep.side, CurStep.onSide, hr, CurStep.allRead, hf, Work.hunt, Work.setCur,
    Work.onLane_onLane, Lane.reading]

theorem CurStep.evaluated_single (hf : c.step.flags.fused = false) :
    ({ c with leader := { c.leader with reading := some r } } : CurStep).evaluated e n r =
      (c.judged e n r, c.outcome e n r) := by
  simp only [CurStep.evaluated, hf]
  rfl

theorem Work.evaluate_ends (hf : c.step.flags.fused = false) (h : c.outcome e n r ≠ .fail ∨ c.attempt = c.step.repeats) :
    w.evaluate e n { c with leader := { c.leader with reading := some r } } =
      w.complete e n (c.judged e n r) (c.outcome e n r).verdict := by
  simp only [Work.evaluate, CurStep.evaluated_single hf]
  generalize c.outcome e n r = o at h
  cases o with
  | pass => rfl
  | unitFault => rfl
  | fail => exact if_pos (h.resolve_left fun hne => hne rfl)

theorem Work.evaluate_repeats (hf : c.step.flags.fused = false) (h : c.outcome e n r = .fail)
    (hrep : c.attempt ≠ c.step.repeats) :
    w.evaluate e n { c with leader := { c.leader with reading := some r } } = w.repeatStep e n (c.judged e n r) := by
  simp only [Work.evaluate, CurStep.evaluated_single hf, h]
  exact if_neg hrep

theorem Work.driveAll_single (w : Work) (hf : c.step.flags.fused = false) (src gate : Bool) :
    w.driveAll e (stepLanes n c.step) src gate =
      w.onLane n fun l => if (e.cfg n).lineMode = .auto then { l with src, gate } else l := by
  rw [stepLanes_single hf]; exact w.drive_eq e n src gate

/-- The end of an event hands out slots beside the causes and the tokens. -/
theorem Work.finish_unclaimed_keeps (ho : w.nodes.order = []) :
    (w.finish e).notices = w.notices ∧ (w.finish e).tokens = w.tokens := by
  by_cases hw : w.wake = true
  · rw [Work.finish_unclaimed ho hw, Work.serveSlots_eq]
    exact ⟨rfl, rfl⟩
  · rw [Work.finish_rested (by simpa using hw)]
    exact ⟨rfl, rfl⟩

end Reading

/-! ### The record and the lane of a delivered reading -/

theorem verdictHalts_verdict (cfg : LaneConfig) (o : AttemptOutcome) :
    verdictHalts cfg o.verdict = true ↔ o = .unitFault ∨ (o = .fail ∧ cfg.failAction = .halt) := by
  cases o <;> simp [verdictHalts, AttemptOutcome.verdict]

theorem AttemptOutcome.verdict_eq_fail (o : AttemptOutcome) : o.verdict = .fail ↔ o = .fail := by
  cases o <;> simp [AttemptOutcome.verdict]

theorem Lane.delivered_pendingHold (l : Lane) (halts : Bool) : (l.delivered halts).pendingHold = false := by
  unfold Lane.delivered Lane.afterDelivery; dsimp only; split
  · rfl
  · next h =>
    rw [Bool.not_eq_true] at h
    split
    · exact h
    · split <;> exact h

theorem Lane.delivered_run (l : Lane) (halts : Bool) :
    (l.delivered halts).run =
      if l.pendingHold = true then .held else if halts = true then .halted
      else if l.run = .pausing then .paused else l.run := by
  unfold Lane.delivered Lane.afterDelivery; dsimp only; split
  · rfl
  · split
    · rfl
    · split <;> rfl

section Completes

variable {w : Work} {e : Env} {n : LaneId} {c : CurStep}

/-- The completion of a step that is not FUSED: behind the release of its nodes its record is delivered (R105). -/
theorem Work.complete_single {v : Verdict} (hf : c.step.flags.fused = false) (hz : (w.lane n).frozen = false)
    (htx : c.step.origin = .unit → (w.lane n).tx.length < 32) (hlen : w.results.length < 128) :
    ∃ u src gate, (w.onLane n fun l => { l with src, gate }).Releases u ∧
      (∀ m, (u.node m).holder =
        if m ∈ c.nodes.map (·.1) ∧ (w.node m).holder = .lane n then .none else (w.node m).holder) ∧
      u.DeliversWith e n c (c.toRecord n v) (w.complete e n c v) := by
  obtain ⟨src, gate, hlow⟩ : ∃ src gate, w.driveAll e (stepLanes n c.step) false false =
      w.onLane n fun l => { l with src, gate } := by
    rw [Work.driveAll_single w hf]
    by_cases ha : (e.cfg n).lineMode = .auto
    · exact ⟨false, false, by simp only [if_pos ha]⟩
    · exact ⟨(w.lane n).src, (w.lane n).gate, by simp only [if_neg ha]; rfl⟩
  have hrel := (w.onLane n fun l => { l with src, gate }).releaseStep_releases e n c
  refine ⟨_, src, gate, hrel, fun m => ?_, ?_⟩
  · exact Work.holder_releaseStep _ e n c m
  · rw [Work.complete, hlow]
    refine Work.enterDeliver_single hf ?_ ?_ ?_
    · rw [hrel.lane, Work.lane_onLane]; exact hz
    · rw [hrel.lane, Work.lane_onLane]; exact htx
    · rw [hrel.results]; exact hlen

theorem settleOf_ne_zero {posted : Nat} (h : posted ≠ 0) (attempt : Nat) : settleOf posted attempt ≠ 0 := by
  have hpow : posted * 2 ^ attempt ≠ 0 := Nat.mul_ne_zero h (Nat.two_pow_pos attempt).ne'
  unfold settleOf
  omega

/-- The next attempt of a step that is not FUSED, with a FIXED settle that counts (R103). -/
theorem Work.repeatStep_counts (hf : c.step.flags.fused = false) (had : c.step.flags.adaptive = false)
    (hset : c.step.settle ≠ 0) (htx : (w.lane n).tx.length < 32) (hauto : (e.cfg n).lineMode = .auto) :
    w.repeatStep e n c = w.onLane n fun l =>
      { l with
        src := false, gate := false
        c0 := Channel.startDown e.clock c.step.flags.coarse (settleOf c.step.settle (c.attempt + 1))
        tx := l.tx ++ [.setup c.step.tag (c.attempt + 1) c.step.function c.step.range c.step.stimulus]
        cur := some { c.nextAttempt with phase := .settle } } := by
  obtain ⟨x, hx⟩ : ∃ x, x = w.onLane n fun l => { l with src := false, gate := false } := ⟨_, rfl⟩
  have hlow : w.driveAll e (stepLanes n c.step) false false = x := by
    rw [stepLanes_single hf, Work.driveAll_auto w false false hauto, hx]
  have hsetup : x.sendSetup n c.nextAttempt = x.onLane n fun l =>
      { l with tx := l.tx ++ [.setup c.step.tag (c.attempt + 1) c.step.function c.step.range c.step.stimulus] } := by
    have hsingle : stepLanes n c.nextAttempt.step = [n] := stepLanes_single hf
    rw [Work.sendSetup, hsingle]
    exact Work.send_room _ (by rw [hx, Work.lane_onLane]; exact htx)
  have hcounts : c.nextAttempt.settleAtStart e n = none := by
    have hadn : c.nextAttempt.step.flags.adaptive = false := had
    have hsetn : c.nextAttempt.settle ≠ 0 := settleOf_ne_zero hset _
    simp only [CurStep.settleAtStart, hadn, Bool.false_eq_true, if_false, if_neg hsetn]
  have hchannel : c.nextAttempt.settleChannel e =
      Channel.startDown e.clock c.step.flags.coarse (settleOf c.step.settle (c.attempt + 1)) := by
    have hadn : c.nextAttempt.step.flags.adaptive = false := had
    simp only [CurStep.settleChannel, hadn, Bool.false_eq_true, if_false]
    rfl
  rw [Work.repeatStep, hlow, hsetup, Work.startSettle_counts hcounts, hchannel]
  dsimp only
  rw [Work.onLane_onLane, hx, Work.onLane_onLane]

end Completes

/-- The two sources of a delivery's causes are never one (section 11.6). -/
theorem deliveryCauses_join (k : Fin 6) (n : LaneId) (b x y : BitVec 5) :
    b ||| (if k = 5 then x else 0) ||| (if k = laneSource n then y else 0) =
      b ||| (if k.val = 5 then x else if k.val = n.val + 1 then y else 0) := by
  have hfive : k = 5 ↔ k.val = 5 := Fin.ext_iff
  have hlane : k = laneSource n ↔ k.val = n.val + 1 := Fin.ext_iff
  have hn := n.isLt
  simp only [hfive, hlane]
  by_cases h5 : k.val = 5
  · have hne : ¬ 5 = n.val + 1 := by omega
    simp [h5, hne]
  · simp [h5]

/-! ### The two ways from RESULT_WAIT -/

/-- The part after the delivery that a reading ends in, field by field (R105, R106). -/
structure Work.DeliversReading (w : Work) (e : Env) (n : LaneId) (c : CurStep) (r : Reading) (v : Work) : Prop where
  lane : ∃ src gate, v.lane n =
    ({ (w.lane n).reading c r with
        src, gate, tx := (w.lane n).tx ++ c.doneMessages (c.outcome e n r).verdict } : Lane).delivered
      (verdictHalts (e.cfg n) (c.outcome e n r).verdict)
  others : ∀ m, m ≠ n → v.lane m = w.lane m
  results : v.results = w.results ++ [(c.judged e n r).toRecord n (c.outcome e n r).verdict]
  holders : ∀ m, (v.node m).holder =
    if m ∈ c.nodes.map (·.1) ∧ (w.node m).holder = .lane n then .none else (w.node m).holder
  tokens : v.tokens = w.tokens
  notices : ∀ k : Fin 6, v.notices[k.val] = w.notices[k.val] |||
    (if k.val = 5 then w.resultCauses else if k.val = n.val + 1 then
      deliveryCauses (e.cfg n) (c.outcome e n r).verdict (w.lane n).queue.length else 0)

section Ways

variable {w : Work} {e : Env} {n : LaneId} {c : CurStep} {r : Reading}

theorem Work.evaluate_delivers (hf : c.step.flags.fused = false) (hend : c.outcome e n r ≠ .fail ∨ c.attempt = c.step.repeats)
    (htx : c.step.origin = .unit → (w.lane n).tx.length < 32) (hz : (w.lane n).frozen = false)
    (hord : w.nodes.order = []) (hlen : w.results.length < 128) :
    w.DeliversReading e n c r (((w.onLane n fun l => l.reading c r).evaluate e n
      { c with leader := { c.leader with reading := some r } }).finish e) := by
  obtain ⟨x, hx⟩ : ∃ x, x = w.onLane n fun l => l.reading c r := ⟨_, rfl⟩
  have hxlane : x.lane n = (w.lane n).reading c r := by rw [hx, Work.lane_onLane]
  obtain ⟨u, src, gate, hrel, hholder, hdel⟩ := Work.complete_single (w := x) (e := e) (n := n) (c := c.judged e n r)
    (v := (c.outcome e n r).verdict) hf (by rw [hxlane]; exact hz) (by rw [hxlane]; exact htx) (by rw [hx]; exact hlen)
  rw [← hx, Work.evaluate_ends hf hend]
  have hulane : u.lane n = { (w.lane n).reading c r with src, gate } := by rw [hrel.lane, Work.lane_onLane, hxlane]
  have hother : ∀ m, m ≠ n → u.lane m = w.lane m := fun m hm => by
    rw [hrel.lane, Work.lane_onLane_ne _ _ hm, hx, Work.lane_onLane_ne _ _ hm]
  have hresults : u.results = w.results := by rw [hrel.results, hx]; rfl
  have hnotices : u.notices = w.notices := by rw [hrel.notices, hx]; rfl
  have htokens : u.tokens = w.tokens := by rw [hrel.tokens, hx]; rfl
  obtain ⟨t, ht⟩ : ∃ t, t = x.complete e n (c.judged e n r) (c.outcome e n r).verdict := ⟨_, rfl⟩
  rw [← ht] at hdel ⊢
  have htorder : t.nodes.order = [] := by rw [hdel.nodes, hrel.order, hx]; exact hord
  obtain ⟨v, hv, hvlanes, hvresults, hvnode⟩ := Work.finish_serves htorder e
  obtain ⟨hvnotices, hvtokens⟩ := Work.finish_unclaimed_keeps (e := e) htorder
  have hvlane : ∀ m, v.lane m = t.lane m := fun m => congrArg (fun ls : Vector Lane 4 => ls[m.val]) hvlanes
  rw [hv] at hvnotices hvtokens ⊢
  refine ⟨⟨src, gate, ?_⟩, fun m hm => ?_, ?_, fun m => ?_, ?_, fun k => ?_⟩
  · rw [hvlane, hdel.lane, hulane]; rfl
  · rw [hvlane, hdel.others m hm, hother m hm]
  · rw [hvresults, hdel.results, hresults]
  · obtain ⟨b, hb⟩ := hvnode m
    have hnode : t.node m = u.node m := Work.node_congr hdel.nodes m
    have hxnode : x.node m = w.node m := by rw [hx]; rfl
    rw [hb, hnode, ← hxnode]
    exact hholder m
  · rw [hvtokens, hdel.tokens, htokens]
  · rw [hvnotices, hdel.notices k, hnotices, deliveryCauses_join, Work.resultCauses, hresults, hulane]
    rfl

/-- An earlier FAIL with a FIXED settle starts the next attempt (R103). -/
theorem Work.evaluate_starts (hf : c.step.flags.fused = false) (hfail : c.outcome e n r = .fail)
    (hrep : c.attempt ≠ c.step.repeats) (hrest : w.rested) (had : c.step.flags.adaptive = false) (hset : c.step.settle ≠ 0)
    (htx : (w.lane n).tx.length < 32) (hauto : (e.cfg n).lineMode = .auto) :
    ((w.onLane n fun l => l.reading c r).evaluate e n { c with leader := { c.leader with reading := some r } }).finish e =
      w.onLane n fun l =>
        { l.reading c r with
          src := false, gate := false
          c0 := Channel.startDown e.clock c.step.flags.coarse (settleOf c.step.settle (c.attempt + 1))
          tx := l.tx ++ [.setup c.step.tag (c.attempt + 1) c.step.function c.step.range c.step.stimulus]
          cur := some { (c.judged e n r).nextAttempt with phase := .settle } } := by
  rw [Work.evaluate_repeats hf hfail hrep, Work.repeatStep_counts (c := c.judged e n r) hf had hset
    (by rw [Work.lane_onLane]; exact htx) hauto, Work.finish_rested (by exact hrest.1), Work.onLane_onLane]
  rfl

end Ways

theorem CurStep.toRecord_judged {c : CurStep} (e : Env) (n : LaneId) (r : Reading) (hf : c.step.flags.fused = false) (v : Verdict) :
    (c.judged e n r).toRecord n v =
      { tag := c.step.tag, lane := n, origin := c.step.origin, error := none, attempts := c.attemptsUsed + 1
        verdict := v, value := (evaluateReading (e.cfg n) c.step.low c.step.high r).1, raw := some r.raw
        settle := c.captured, saturated := (evaluateReading (e.cfg n) c.step.low c.step.high r).2.1
        capped := c.capped, overpost := c.overpost, token := c.token, follower := none } := by
  have hfused : (c.judged e n r).step.flags.fused = false := hf
  simp only [CurStep.toRecord, hfused, Bool.false_eq_true, if_false]
  rfl

theorem deliveryCauses_verdict (cfg : LaneConfig) (o : AttemptOutcome) (left : Nat) :
    deliveryCauses cfg o.verdict left =
      (if o = .fail then 1 else 0) |||
        (if o = .unitFault ∨ (o = .fail ∧ cfg.failAction = .halt) then 2 else 0) |||
        (if 1 ≤ cfg.lowWater ∧ left = cfg.lowWater then 4 else 0) := by
  simp only [deliveryCauses, verdictHalts_verdict, AttemptOutcome.verdict_eq_fail]

/-- Settles O54: the reading makes the step's record, which its delivery enters with its causes, or starts the next
attempt. -/
theorem readingBecomesTheDeliveredRecord : Obligations.ReadingBecomesTheDeliveredRecord := by
  intro s n c attempt flag raw f l cfg x halts verdict hflag hattempt hrun hc hp hf hr
  rw [exec_result_taken (raw := raw) hflag hattempt hrun hc hp hf hr]
  refine ⟨fun hend htx hz hord hlen => ?_, fun hfail hrep hrest had hset htx hauto => ?_⟩
  · have h := Work.evaluate_delivers (w := s.work) (e := s.env) (n := n) (c := c) (r := ⟨raw.toInt, f⟩) hf hend htx hz hord
      hlen
    obtain ⟨src, gate, hlane⟩ := h.lane
    have hverdict : (c.outcome s.env n ⟨raw.toInt, f⟩).verdict = verdict := by
      change x.2.2.verdict = match x.2.2 with | .pass => .pass | .fail => .fail | .unitFault => .unitFault
      cases x.2.2 <;> rfl
    rw [hverdict] at hlane
    refine ⟨_, rfl, ?_, ?_, ?_, ?_, ?_, ?_, fun k => ?_, h.holders, h.others, h.tokens⟩
    · rw [h.results, CurStep.toRecord_judged _ _ _ hf, hverdict]; rfl
    · rw [hlane, Lane.delivered_cur]
    · rw [hlane, Lane.delivered_queue]; rfl
    · rw [hlane, Lane.delivered_pendingHold]
    · rw [hlane, Lane.delivered_run, ← hverdict]
      simp only [verdictHalts_verdict]
      rfl
    · rw [hlane, Lane.delivered_tx]; rfl
    · rw [h.notices k, deliveryCauses_verdict]; rfl
  · rw [Work.evaluate_starts (w := s.work) (e := s.env) (n := n) (c := c) (r := ⟨raw.toInt, f⟩) hf hfail hrep hrest had hset htx hauto]
    rfl

end Sys2Proof.Machine
end

section
/-! PROOFS, family 05_lane_sequencing.md: CONFIG_LANE and LINE_WRITE; O18, O20. -/

namespace Sys2Proof.Machine

/-! ### The coded fields of CONFIG_LANE -/

/-- A field with the two codes 0 and 1 (section 11.6). -/
theorem twoCodes {α : Type} (zero one : α) (k : Nat) :
    (match k with | 0 => some zero | 1 => some one | _ => none) =
      if 2 ≤ k then none else some (if k = 1 then one else zero) := by
  match k with
  | 0 => rfl
  | 1 => rfl
  | k + 2 => exact (if_pos (Nat.le_add_left 2 k)).symm

theorem enabledOf_eq (b : Byte) : enabledOf b = if 2 ≤ b.toNat then none else some (decide (b.toNat = 1)) :=
  twoCodes false true b.toNat

theorem failActionOf_eq (b : Byte) :
    failActionOf b = if 2 ≤ b.toNat then none else some (if b.toNat = 1 then .halt else .continue') :=
  twoCodes FailAction.continue' .halt b.toNat

theorem timeoutActionOf_eq (b : Byte) :
    timeoutActionOf b = if 2 ≤ b.toNat then none else some (if b.toNat = 1 then .halt else .substitute) :=
  twoCodes TimeoutAction.substitute .halt b.toNat

theorem lineModeOf_eq (b : Byte) :
    lineModeOf b = if 2 ≤ b.toNat then none else some (if b.toNat = 1 then .manual else .auto) :=
  twoCodes LineMode.auto .manual b.toNat

section ConfigLane

variable {s : State} {lane en fa ta : Byte} {gain : BitVec 16} {offset : BitVec 24} {linger : BitVec 16} {low mode : Byte}

/-- A field of CONFIG_LANE lies outside its set (R84). -/
def BadConfig (en fa ta low mode : Byte) (offset : BitVec 24) : Prop :=
  2 ≤ en.toNat ∨ 2 ≤ fa.toNat ∨ 2 ≤ ta.toNat ∨ 2 ≤ mode.toNat ∨ 64 ≤ low.toNat ∨ offset.toInt = -8388608

/-- The record that the eight fields of CONFIG_LANE make (R83). -/
def configRecord (en fa ta : Byte) (gain : BitVec 16) (offset : BitVec 24) (linger : BitVec 16) (low mode : Byte) :
    LaneConfig :=
  { enabled := en.toNat = 1
    failAction := if fa.toNat = 1 then .halt else .continue'
    timeoutAction := if ta.toNat = 1 then .halt else .substitute
    gain := gain.toNat, offset := offset.toInt, linger := linger.toNat, lowWater := low.toNat
    lineMode := if mode.toNat = 1 then .manual else .auto }

theorem configOf_bad (h : BadConfig en fa ta low mode offset) : configOf en fa ta gain offset linger low mode = none := by
  unfold configOf
  split
  · next hen hfa hta hmode =>
    rw [enabledOf_eq] at hen
    rw [failActionOf_eq] at hfa
    rw [timeoutActionOf_eq] at hta
    rw [lineModeOf_eq] at hmode
    refine if_pos ?_
    rcases h with h | h | h | h | h | h
    · simp [h] at hen
    · simp [h] at hfa
    · simp [h] at hta
    · simp [h] at hmode
    · exact .inl h
    · exact .inr h
  · rfl

theorem configOf_good (h : ¬ BadConfig en fa ta low mode offset) :
    configOf en fa ta gain offset linger low mode = some (configRecord en fa ta gain offset linger low mode) := by
  simp only [BadConfig, not_or] at h
  obtain ⟨hen, hfa, hta, hmode, hlow, hoffset⟩ := h
  have hvalues : ¬ (63 < low.toNat ∨ offset.toInt = Config.noReading) := not_or.2 ⟨hlow, hoffset⟩
  simp only [configOf, enabledOf_eq, failActionOf_eq, timeoutActionOf_eq, lineModeOf_eq, if_neg hen, if_neg hfa, if_neg hta,
    if_neg hmode, if_neg hvalues]
  rfl

theorem exec_configLane_format (h : 4 ≤ lane.toNat ∨ BadConfig en fa ta low mode offset) :
    exec (.configLane lane en fa ta gain offset linger low mode) s =
      .next { s with work := s.work.reply 0x05 .format [] } := by
  change execConfigLane lane en fa ta gain offset linger low mode s = _
  unfold execConfigLane
  split
  · next hlane hconfig =>
    rcases h with h | h
    · rw [laneOf_of_ge h] at hlane; cases hlane
    · rw [configOf_bad h] at hconfig; cases hconfig
  · rfl

/-- A lane that CONFIG_LANE may configure: STOPPED, PAUSED or HALTED with no step in progress (R84). -/
def Lane.configurable (l : Lane) : Prop := (l.run = .stopped ∨ l.run = .paused ∨ l.run = .halted) ∧ l.cur = none

theorem exec_configLane_active {n : LaneId} (hn : n.val = lane.toNat) (h : ¬ BadConfig en fa ta low mode offset)
    (hl : ¬ (s.work.lane n).configurable) :
    exec (.configLane lane en fa ta gain offset linger low mode) s =
      .next { s with work := s.work.reply 0x05 .laneActive [] } := by
  change execConfigLane lane en fa ta gain offset linger low mode s = _
  simp only [execConfigLane, laneOf_of_val_eq hn, configOf_good h]
  exact if_neg hl

/-- The part after a change of line mode: MANUAL to AUTO drives both lines of the lane low (R110). -/
def Work.modeChanged (w : Work) (n : LaneId) (before after : LineMode) : Work :=
  if before = .manual ∧ after = .auto then w.setLane n { w.lane n with src := false, gate := false } else w

theorem exec_configLane_replaces {n : LaneId} (hn : n.val = lane.toNat) (h : ¬ BadConfig en fa ta low mode offset)
    (hl : (s.work.lane n).configurable) :
    exec (.configLane lane en fa ta gain offset linger low mode) s =
      .next
        { s with
          fix :=
            { s.fix with lanes := s.fix.lanes.set n.val (configRecord en fa ta gain offset linger low mode) }
          work :=
            (s.work.modeChanged n (s.fix.lanes[n.val]).lineMode
              (configRecord en fa ta gain offset linger low mode).lineMode).reply 0x05 .ok [] } := by
  change execConfigLane lane en fa ta gain offset linger low mode s = _
  simp only [execConfigLane, laneOf_of_val_eq hn, configOf_good h]
  exact if_pos hl

end ConfigLane

/-- Settles O18: the checks of the fields, then that of the lane, and otherwise the whole record with the lines of a
change of line mode. -/
theorem configLaneReplacesAllFields : Obligations.ConfigLaneReplacesAllFields := by
  intro s lane en fa ta gain offset linger low mode bad
  refine ⟨exec_configLane_format, ?_⟩
  intro hgood n hn l idle manual
  have hconfig : ¬ BadConfig en fa ta low mode offset := fun h => hgood (.inr h)
  refine ⟨exec_configLane_active hn hconfig, fun hidle => ?_⟩
  have hmode : (if mode.toNat = 1 then LineMode.manual else .auto) = .auto ↔ mode.toNat = 0 := by
    have hlt : mode.toNat < 2 := Nat.not_le.1 fun h => hconfig (.inr (.inr (.inr (.inl h))))
    split
    · simp; omega
    · simp; omega
  rw [exec_configLane_replaces hn hconfig hidle]
  simp only [Work.modeChanged, configRecord, hmode]
  rfl

/-! ### LINE_WRITE -/

/-- A lane whose line mode is MANUAL takes the levels that LINE_WRITE carries (R109). -/
def Lane.takeLevels (l : Lane) (cfg : LaneConfig) (n : LaneId) (levels : Byte) : Lane :=
  if cfg.lineMode = .manual then { l with src := levels.getLsbD n.val, gate := levels.getLsbD (n.val + 4) } else l

theorem exec_lineWrite (s : State) (levels : Byte) :
    ∃ v : Work, exec (.lineWrite levels) s = .next { s with work := v.reply 0x11 .ok [] } ∧
      v = { s.work with lanes := v.lanes } ∧
      ∀ n, v.lane n = (s.work.lane n).takeLevels (s.env.cfg n) n levels := by
  obtain ⟨v, hfold, hv, hlane⟩ := Work.foldl_onLane (w := s.work) (ns := allLanes)
    (op := fun w n =>
      if (s.env.cfg n).lineMode = .manual then
        w.onLane n fun l => { l with src := levels.getLsbD n.val, gate := levels.getLsbD (n.val + 4) }
      else w)
    (g := fun n l => l.takeLevels (s.env.cfg n) n levels)
    (fun u n _ _ _ => by
      unfold Lane.takeLevels
      split
      · rfl
      · exact (u.setLane_lane n).symm) nodup_allLanes
  refine ⟨v, ?_, hv, fun n => ?_⟩
  · rw [← hfold]; rfl
  · rw [hlane, if_pos (mem_allLanes n)]

/-- Settles O20: the request acts on each lane by that lane's line mode alone. -/
theorem lineWriteDrivesManualLanes : Obligations.LineWriteDrivesManualLanes := by
  intro s levels
  obtain ⟨v, hexec, hv, hlane⟩ := exec_lineWrite s levels
  refine ⟨_, hexec, ?_, rfl, hlane⟩
  conv_lhs => rw [hv]
  rfl

end Sys2Proof.Machine
end

section
/-! PROOFS, family 05_lane_sequencing.md: the end of settle; O52. -/

namespace Sys2Proof.Machine

section Settle

variable {s : State} {w : Work} {e : Env} {n : LaneId} {c : CurStep}

/-- SOURCE begins on a lane in AUTO mode, its source delay still to run out (R98). -/
theorem Work.beginSource_single (hf : c.step.flags.fused = false) (hd : c.step.sourceDelay ≠ 0)
    (hm : (e.cfg n).lineMode = .auto) :
    w.beginSource e n c =
      w.onLane n fun l =>
        { l with
          cur := some { c with phase := .source }, src := true, gate := false
          c1 := Channel.startDown e.clock c.step.flags.coarse c.step.sourceDelay } := by
  simp [Work.beginSource, hd, Work.openSource, stepLanes_single hf, Work.driveAll_auto _ _ _ hm, Work.startEach,
    Work.setCur, Work.onLane_onLane]

theorem Work.enterReadyWait_eq :
    w.enterReadyWait e n c =
      w.onLane n fun l =>
        { l with
          cur := some { c with phase := .readyWait }
          c3 := Channel.startDown e.clock c.step.flags.coarse c.step.watch } := by
  simp only [Work.enterReadyWait, Work.startWatch, Work.setCur, Work.onLane_onLane]

/-- The lane of a step whose settle has ended: SOURCE when READY has come, otherwise READY_WAIT with C3 (R95, R98). -/
def Lane.settleEnded (l : Lane) (k : Clock) (c : CurStep) : Lane :=
  if c.leader.ready then
    { l with
      cur := some { c with phase := .source }, src := true, gate := false
      c1 := Channel.startDown k c.step.flags.coarse c.step.sourceDelay }
  else
    { l with
      cur := some { c with phase := .readyWait }
      c3 := Channel.startDown k c.step.flags.coarse c.step.watch }

theorem Work.endSettle_single (hf : c.step.flags.fused = false) (hd : c.step.sourceDelay ≠ 0)
    (hm : (e.cfg n).lineMode = .auto) (captured : Nat) (capped : Bool) :
    w.endSettle e n c captured capped = w.onLane n fun l => l.settleEnded e.clock (c.settled captured capped) := by
  have hall : (c.settled captured capped).allReady = c.leader.ready := by simp [CurStep.allReady, CurStep.settled, hf]
  have hready : (c.settled captured capped).leader.ready = c.leader.ready := rfl
  simp only [Work.endSettle, hall, Lane.settleEnded, hready]
  split
  · exact Work.beginSource_single (by exact hf) (by exact hd) hm
  · exact Work.enterReadyWait_eq

theorem exec_fixedSettleExpiry (hc : (s.work.lane n).cur = some c) (hp : c.phase = .settle)
    (hx : (s.work.lane n).c0.expiring = true) :
    exec (.fixedSettleExpiry n) s =
      .next
        { s with
          work :=
            ((s.work.onLane n fun l => { l with c0 := l.c0.expire }).endSettle s.env n c c.settle false).finish
              s.env } := by
  change execFixedSettleExpiry n s = _
  simp only [execFixedSettleExpiry, onWork_eq, hc]
  rw [if_pos ⟨hp, hx⟩]

/-- The settle test of C0 is to be made (R122). -/
def Channel.testDue (ch : Channel) : Prop := ch.counting = true ∧ ch.due = true ∧ ch.adaptive = true

theorem exec_adaptiveSettleEnd_ends {capped : Bool} (hc : (s.work.lane n).cur = some c) (hp : c.phase = .settle)
    (hx : (s.work.lane n).c0.testDue)
    (ht : (s.work.lane n).c0.settleTest (s.inputs.stable[n.val]).level = some capped) :
    exec (.adaptiveSettleEnd n) s =
      .next
        { s with
          work :=
            ((s.work.onLane n fun l => { l with c0 := l.c0.stop }).endSettle s.env n c (s.work.lane n).c0.count
              capped).finish s.env } := by
  change execAdaptiveSettleEnd n s = _
  simp only [execAdaptiveSettleEnd, onWork_eq, hc, ht]
  rw [if_pos ⟨hp, hx⟩]
  rfl

theorem exec_adaptiveSettleEnd_counts (hc : (s.work.lane n).cur = some c) (hp : c.phase = .settle)
    (hx : (s.work.lane n).c0.testDue) (ht : (s.work.lane n).c0.settleTest (s.inputs.stable[n.val]).level = none) :
    exec (.adaptiveSettleEnd n) s =
      .next { s with work := s.work.onLane n fun l => { l with c0 := { l.c0 with due := false } } } := by
  change execAdaptiveSettleEnd n s = _
  simp only [execAdaptiveSettleEnd, onWork_eq, hc, ht]
  rw [if_pos ⟨hp, hx⟩]
  rfl

/-! ### The settle test (R122) -/

theorem Channel.settleTest_stable {ch : Channel} {stable : Bool} (h : ch.minimum ≤ ch.count ∧ stable = true) :
    ch.settleTest stable = some false := if_pos h

theorem Channel.settleTest_cap {ch : Channel} {stable : Bool} (h : ¬ (ch.minimum ≤ ch.count ∧ stable = true))
    (hcap : ch.count = ch.cap) : ch.settleTest stable = some true := (if_neg h).trans (if_pos hcap)

theorem Channel.settleTest_counts {ch : Channel} {stable : Bool} (h : ¬ (ch.minimum ≤ ch.count ∧ stable = true))
    (hcap : ch.count ≠ ch.cap) : ch.settleTest stable = none := (if_neg h).trans (if_neg hcap)

theorem Channel.stop_counting {ch : Channel} (h : ch.counting = true) : ch.stop = ch.ended := if_pos h

end Settle

/-- Settles O52: the expiry or the settle test stops C0, and the end of settle goes by the READY flag alone. -/
theorem settleEndsIntoSourceOrReadyWait : Obligations.SettleEndsIntoSourceOrReadyWait := by
  intro s n c hrest hc hp hf hd hm l ended
  have hend : ∀ (ch : Channel) (captured : Nat) (capped : Bool),
      .next
        { s with
          work :=
            ((s.work.onLane n fun l => { l with c0 := ch }).endSettle s.env n c captured capped).finish s.env } =
        ended ch captured capped := by
    intro ch captured capped
    rw [Work.endSettle_single (e := s.env) hf hd hm, Work.finish_rested (by exact hrest.1), Work.onLane_onLane]
    rfl
  refine ⟨fun hcount hdue had => ?_, ?_⟩
  · have hx : l.c0.expiring = true := by simp [Channel.expiring, hcount, hdue, had]
    rw [exec_fixedSettleExpiry hc hp hx]
    exact hend l.c0.expire c.settle false
  · intro hcount hdue had stable stopped
    have hx : l.c0.testDue := ⟨hcount, hdue, had⟩
    have hstop : l.c0.stop = stopped := Channel.stop_counting hcount
    have hends : ∀ capped, l.c0.settleTest stable = some capped →
        exec (.adaptiveSettleEnd n) s = ended stopped l.c0.count capped := by
      intro capped ht
      rw [exec_adaptiveSettleEnd_ends hc hp hx ht, ← hstop]
      exact hend l.c0.stop l.c0.count capped
    refine ⟨fun hmin hs => hends false (Channel.settleTest_stable ⟨hmin, hs⟩),
      fun hno hcap => hends true (Channel.settleTest_cap hno hcap), fun hno hcap => ?_⟩
    rw [exec_adaptiveSettleEnd_counts hc hp hx (Channel.settleTest_counts hno hcap)]
    rfl

end Sys2Proof.Machine
end

section
/-! PROOFS, family 05_lane_sequencing.md: READY and RESULT at the step that they serve; O46, O47. -/

namespace Sys2Proof.Machine

section Messages

variable {s : State} {w : Work} {e : Env} {n link : LaneId} {c : CurStep} {side : Bool} {tag : BitVec 16} {attempt : Byte}

/-! ### The step that a message serves -/

theorem Work.lane_hunt (w : Work) (n : LaneId) : (w.hunt n).lane n = { w.lane n with rx := .hunting } :=
  w.lane_onLane n _

theorem Work.lane_hunt_ne (w : Work) (h : n ≠ link) : (w.hunt link).lane n = w.lane n := w.lane_onLane_ne _ h

/-- A message on the link of a lane that is not FOLLOWING serves the lane's own step. -/
theorem Work.owner_hunt_self (h : (w.lane n).run ≠ .following) : (w.hunt n).owner n = (n, false) := by
  have hrun : ((w.hunt n).lane n).run ≠ .following := by rw [Work.lane_hunt]; exact h
  unfold Work.owner
  split
  · next hf _ => exact absurd hf hrun
  · rfl

/-- A message on the link of a FOLLOWING lane serves the follower side of its leader's step (R137). -/
theorem Work.owner_hunt_leader (h : (w.lane link).run = .following) (hl : leaderOf link = some n) :
    (w.hunt link).owner link = (n, true) := by
  have hrun : ((w.hunt link).lane link).run = .following := by rw [Work.lane_hunt]; exact h
  simp only [Work.owner, hrun, hl]

theorem CurStep.matches_iff : c.matches tag attempt = true ↔ c.step.tag = tag ∧ attempt.toNat = c.attempt := by
  simp [CurStep.matches]

/-! ### READY -/

/-- The step waits for a READY with this tag and attempt (R96). -/
def CurStep.awaitsReady (c : CurStep) (side : Bool) (tag : BitVec 16) (attempt : Byte) : Prop :=
  c.matches tag attempt = true ∧ (c.side side).ready = false ∧
    (c.phase = .switch ∨ c.phase = .settle ∨ c.phase = .readyWait)

/-- The step with the READY of one side remembered (R96). -/
def CurStep.readied (c : CurStep) (side : Bool) : CurStep := c.onSide side fun x => { x with ready := true }

theorem exec_ready : exec (.ready n tag attempt) s =
    .next { s with work := ((s.work.hunt n).takeReady s.env n tag attempt).finish s.env } := rfl

theorem Work.takeReady_stale (ho : w.owner link = (n, side))
    (h : ∀ c, (w.lane n).cur = some c → ¬ c.awaitsReady side tag attempt) :
    w.takeReady e link tag attempt = w.raise (.stale link) := by
  simp only [Work.takeReady, ho]
  split
  · rfl
  · next c hc => exact if_neg (h c hc)

theorem Work.takeReady_remembered (ho : w.owner link = (n, side)) (hc : (w.lane n).cur = some c)
    (h : c.awaitsReady side tag attempt) (hp : c.phase ≠ .readyWait) :
    w.takeReady e link tag attempt = w.setCur n (some (c.readied side)) := by
  simp only [Work.takeReady, ho, hc]
  exact (if_pos h).trans (if_neg fun hk => hp hk.1)

theorem Work.takeReady_begins (ho : w.owner link = (n, side)) (hc : (w.lane n).cur = some c)
    (h : c.awaitsReady side tag attempt) (hp : c.phase = .readyWait) (hall : (c.readied side).allReady = true) :
    w.takeReady e link tag attempt =
      ((w.setCur n (some (c.readied side))).onLane n fun l => { l with c3 := l.c3.stop }).beginSource e n
        (c.readied side) := by
  simp only [Work.takeReady, ho, hc]
  exact (if_pos h).trans (if_pos ⟨hp, hall⟩)

/-! ### RESULT -/

/-- The step holds a RESULT with this tag and attempt (R100). -/
def CurStep.holdsResult (c : CurStep) (side : Bool) (tag : BitVec 16) (attempt : Byte) : Prop :=
  c.matches tag attempt = true ∧ (c.phase = .source ∨ c.phase = .gate) ∧ (c.side side).held = none

/-- The step takes a RESULT with this tag and attempt as the reading of a side (R101, R142). -/
def CurStep.readsResult (c : CurStep) (side : Bool) (tag : BitVec 16) (attempt : Byte) : Prop :=
  c.matches tag attempt = true ∧ c.phase = .resultWait ∧ (c.side side).reading = none

/-- The step with the reading of one side taken (R142). -/
def CurStep.withReading (c : CurStep) (side : Bool) (r : Reading) : CurStep :=
  c.onSide side fun x => { x with reading := some r }

/-- The codes 0, 1 and 2 alone name a reading flag (R156). -/
theorem readingFlagOf_eq_none_iff {b : Byte} : readingFlagOf b = none ↔ 3 ≤ b.toNat := by
  unfold readingFlagOf
  generalize b.toNat = k
  match k with
  | 0 | 1 | 2 => simp
  | k + 3 => simp

theorem exec_result_discarded {raw : BitVec 24} {flag : Byte} (h : readingFlagOf flag = none) :
    exec (.result n tag attempt raw flag) s = .next { s with work := s.work.discardFrame n } := by
  change execResult n tag attempt raw flag s = _
  simp only [execResult, onWork_eq, h]

theorem exec_result {raw : BitVec 24} {flag : Byte} {f : ReadingFlag} (h : readingFlagOf flag = some f) :
    exec (.result n tag attempt raw flag) s =
      .next
        { s with work := ((s.work.hunt n).takeResult s.env n tag attempt ⟨raw.toInt, f⟩).finish s.env } := by
  change execResult n tag attempt raw flag s = _
  simp only [execResult, onWork_eq, h]

theorem Work.takeResult_stale {r : Reading} (ho : w.owner link = (n, side))
    (h : ∀ c, (w.lane n).cur = some c → ¬ c.holdsResult side tag attempt ∧ ¬ c.readsResult side tag attempt) :
    w.takeResult e link tag attempt r = w.raise (.stale link) := by
  simp only [Work.takeResult, ho]
  split
  · rfl
  · next c hc => exact (if_neg (h c hc).1).trans (if_neg (h c hc).2)

theorem Work.takeResult_held {r : Reading} (ho : w.owner link = (n, side)) (hc : (w.lane n).cur = some c)
    (h : c.holdsResult side tag attempt) :
    w.takeResult e link tag attempt r = w.setCur n (some (c.onSide side fun x => { x with held := some r })) := by
  simp only [Work.takeResult, ho, hc]
  exact if_pos h

/-- A reading in RESULT_WAIT: the one that completes the attempt stops C3 and starts evaluation (R101, R142). -/
theorem Work.takeResult_read {r : Reading} (ho : w.owner link = (n, side)) (hc : (w.lane n).cur = some c)
    (h : c.readsResult side tag attempt) :
    w.takeResult e link tag attempt r =
      if (c.withReading side r).allRead = true then
        ((w.setCur n (some (c.withReading side r))).onLane n fun l => { l with c3 := l.c3.stop }).evaluate e n
          (c.withReading side r)
      else w.setCur n (some (c.withReading side r)) := by
  have hnot : ¬ c.holdsResult side tag attempt := by
    rintro ⟨_, hp, _⟩
    rw [h.2.1] at hp
    simp at hp
  simp only [Work.takeResult, ho, hc]
  exact (if_neg hnot).trans (if_pos h)

end Messages

/-- Settles O46: the message serves the step of the lane or of its leader, and the step's phase decides. -/
theorem readyIsRememberedOrBeginsSource : Obligations.ReadyIsRememberedOrBeginsSource := by
  intro s tag attempt hrest
  refine ⟨?_, ?_⟩
  · intro n hrun l
    have howner := Work.owner_hunt_self hrun
    have hlane : (s.work.hunt n).lane n = { l with rx := .hunting } := s.work.lane_hunt n
    refine ⟨fun hstale => ?_, ?_⟩
    · rw [exec_ready, Work.takeReady_stale howner, Work.finish_rested (by exact hrest.1)]
      · rfl
      · rintro c hc ⟨hmatch, hready, hphase⟩
        obtain ⟨htag, hattempt⟩ := CurStep.matches_iff.1 hmatch
        rw [hlane] at hc
        obtain ⟨hswitch, hsettle, hwait⟩ := hstale c hc htag hattempt hready
        rcases hphase with hp | hp | hp
        · exact hswitch hp
        · exact hsettle hp
        · exact hwait hp
    · intro c hc htag hattempt hready marked
      have hmatch : c.matches tag attempt = true := CurStep.matches_iff.2 ⟨htag, hattempt⟩
      have hcur : ((s.work.hunt n).lane n).cur = some c := by rw [hlane]; exact hc
      refine ⟨fun hp => ?_, fun hp hf hd hm => ?_⟩
      · have hphase : c.phase ≠ .readyWait := by rcases hp with hp | hp <;> rw [hp] <;> decide
        rw [exec_ready, Work.takeReady_remembered howner hcur ⟨hmatch, hready, hp.imp_right .inl⟩ hphase,
          Work.finish_rested (by exact hrest.1), Work.hunt, Work.setCur, Work.onLane_onLane]
        rfl
      · have hall : (c.readied false).allReady = true := by
          simp [CurStep.allReady, CurStep.readied, CurStep.onSide, hf]
        rw [exec_ready, Work.takeReady_begins howner hcur ⟨hmatch, hready, .inr (.inr hp)⟩ hp hall,
          Work.beginSource_single (by exact hf) (by exact hd) (by exact hm), Work.finish_rested (by exact hrest.1), Work.hunt,
          Work.setCur, Work.onLane_onLane, Work.onLane_onLane, Work.onLane_onLane]
        rfl
  · intro n f c hpair hfollow hc htag hattempt hready hp
    have hleader : leaderOf f = some n ∧ n ≠ f := by rcases hpair with ⟨rfl, rfl⟩ | ⟨rfl, rfl⟩ <;> decide
    obtain ⟨hl, hne⟩ := hleader
    have hlane : (s.work.hunt f).lane n = s.work.lane n := s.work.lane_hunt_ne hne
    have hphase : c.phase ≠ .readyWait := by rcases hp with hp | hp <;> rw [hp] <;> decide
    rw [exec_ready, Work.takeReady_remembered (Work.owner_hunt_leader hfollow hl) (by rw [hlane]; exact hc)
      ⟨CurStep.matches_iff.2 ⟨htag, hattempt⟩, hready, hp.imp_right .inl⟩ hphase, Work.finish_rested (by exact hrest.1),
      Work.setCur, Work.onLane, hlane]
    rfl

/-- Settles O47: the flag byte decides whether there is a reading, and the step's phase whether it is held. -/
theorem resultIsHeldOrStale : Obligations.ResultIsHeldOrStale := by
  intro s n tag attempt raw flag hrest l
  refine ⟨fun hflag => ?_, fun hrun => ?_⟩
  · rw [exec_result_discarded (readingFlagOf_eq_none_iff.2 hflag)]
    rfl
  have howner := Work.owner_hunt_self hrun
  have hlane : (s.work.hunt n).lane n = { l with rx := .hunting } := s.work.lane_hunt n
  refine ⟨fun hflag hstale => ?_, ?_⟩
  · obtain ⟨f, hf⟩ : ∃ f, readingFlagOf flag = some f :=
      Option.ne_none_iff_exists'.1 fun h => absurd (readingFlagOf_eq_none_iff.1 h) (Nat.not_le.2 hflag)
    rw [exec_result hf, Work.takeResult_stale howner, Work.finish_rested (by exact hrest.1)]
    · rfl
    · intro c hc
      rw [hlane] at hc
      have hno := fun hmatch : c.matches tag attempt = true =>
        hstale c hc (CurStep.matches_iff.1 hmatch).1 (CurStep.matches_iff.1 hmatch).2
      exact ⟨fun ⟨hmatch, hp, hheld⟩ => (hno hmatch).2 hp hheld, fun ⟨hmatch, hp, _⟩ => (hno hmatch).1 hp⟩
  · intro c f hf hc htag hattempt hp hheld
    rw [exec_result hf, Work.takeResult_held howner (by rw [hlane]; exact hc)
      ⟨CurStep.matches_iff.2 ⟨htag, hattempt⟩, hp, hheld⟩, Work.finish_rested (by exact hrest.1), Work.hunt, Work.setCur,
      Work.onLane_onLane]
    rfl

end Sys2Proof.Machine
end

section
/-! PROOFS, family 05_lane_sequencing.md: the lanes of a fused pair, side by side. -/

namespace Sys2Proof.Machine

/-- The lines of a lane as its step drives them: in AUTO mode alone (R108, R109). -/
def Lane.driven (l : Lane) (cfg : LaneConfig) (src gate : Bool) : Lane :=
  { l with
    src := if cfg.lineMode = .auto then src else l.src
    gate := if cfg.lineMode = .auto then gate else l.gate }

theorem Lane.driven_eq (l : Lane) (cfg : LaneConfig) (src gate : Bool) :
    l.driven cfg src gate = if cfg.lineMode = .auto then { l with src, gate } else l := by
  by_cases h : cfg.lineMode = .auto <;> simp [Lane.driven, h]

theorem Work.drive_onLane (w : Work) (e : Env) (n : LaneId) (src gate : Bool) :
    w.drive e n src gate = w.onLane n fun l => l.driven (e.cfg n) src gate := by
  simp only [Work.drive_eq, Lane.driven_eq]

/-- The lane of a follower when its pair ends (R138). -/
def Lane.unpaired (m : Lane) : Lane :=
  if m.run = .following then { m with run := m.remembered.getD .stopped, remembered := none, frozen := false }
  else { m with frozen := false }

theorem Lane.unpaired_following {m : Lane} {q : RunState} (h : m.run = .following) (hq : m.remembered = some q) :
    m.unpaired = { m with run := q, remembered := none, frozen := false } := by
  simp only [Lane.unpaired, if_pos h, hq, Option.getD_some]

/-! ### Writing both lanes -/

/-- The part with other lanes for a leader and its follower. -/
def Work.pair (w : Work) (n f : LaneId) (l m : Lane) : Work := (w.setLane f m).setLane n l

section Pair

variable {w : Work} {e : Env} {n f : LaneId} {l m : Lane}

theorem Work.lane_pair_leader : (w.pair n f l m).lane n = l := Work.lane_setLane _ _ _

theorem Work.lane_pair_follower (hne : n ≠ f) : (w.pair n f l m).lane f = m := by
  rw [Work.pair, Work.lane_setLane_ne _ _ hne.symm, Work.lane_setLane]

theorem Work.lane_pair_ne {a : LaneId} (hn : a ≠ n) (hf : a ≠ f) : (w.pair n f l m).lane a = w.lane a := by
  rw [Work.pair, Work.lane_setLane_ne _ _ hn, Work.lane_setLane_ne _ _ hf]

theorem Work.onLane_pair_leader (g : Lane → Lane) : (w.pair n f l m).onLane n g = w.pair n f (g l) m := by
  rw [Work.onLane, Work.lane_pair_leader, Work.pair, Work.setLane_setLane, ← Work.pair]

theorem Work.onLane_pair_follower (hne : n ≠ f) (g : Lane → Lane) :
    (w.pair n f l m).onLane f g = w.pair n f l (g m) := by
  rw [Work.onLane, Work.lane_pair_follower hne, Work.pair, Work.setLane_comm _ hne, Work.setLane_setLane, ← Work.pair]

theorem Work.pair_self (w : Work) (n f : LaneId) : w.pair n f (w.lane n) (w.lane f) = w := by
  rw [Work.pair, Work.setLane_lane, Work.setLane_lane]

theorem Work.onLane_eq_pair (w : Work) (n f : LaneId) (g : Lane → Lane) :
    w.onLane n g = w.pair n f (g (w.lane n)) (w.lane f) := by
  conv_lhs => rw [← w.pair_self n f]
  exact Work.onLane_pair_leader g

/-! ### The operations on both lanes of a FUSED step -/

variable {c : CurStep}

theorem stepLanes_pair {r : StepRecord} (hf : fusedFollower n r = some f) : stepLanes n r = [n, f] := by
  simp only [stepLanes, hf, Option.toList_some]

/-- A leader is nobody's follower (chapter 7). -/
theorem leaderOf_leader {r : StepRecord} (hf : fusedFollower n r = some f) : leaderOf n = none := by
  have hlead : ∀ n f : LaneId, leaderOf f = some n → leaderOf n = none := by decide
  exact hlead n f ((fusedFollower_leaderOf r).1 hf).1

theorem Work.driveAll_pair (hf : fusedFollower n c.step = some f) (src gate : Bool) :
    (w.pair n f l m).driveAll e (stepLanes n c.step) src gate =
      w.pair n f (l.driven (e.cfg n) src gate) (m.driven (e.cfg f) src gate) := by
  simp only [stepLanes_pair hf, Work.driveAll, List.foldl_cons, List.foldl_nil, Work.drive_onLane, Work.onLane_pair_leader,
    Work.onLane_pair_follower (fusedFollower_ne hf).symm]

theorem Work.sendAll_pair (hf : fusedFollower n c.step = some f) (x : UnitMessage) (hl : l.tx.length < 32)
    (hm : m.tx.length < 32) :
    (w.pair n f l m).sendAll (stepLanes n c.step) x =
      w.pair n f { l with tx := l.tx ++ [x] } { m with tx := m.tx ++ [x] } := by
  have hne := (fusedFollower_ne hf).symm
  have hleader : (w.pair n f l m).send n x = w.pair n f { l with tx := l.tx ++ [x] } m := by
    rw [Work.send_room x (by rw [Work.lane_pair_leader]; exact hl), Work.onLane_pair_leader]
  have hfollower (l : Lane) : (w.pair n f l m).send f x = w.pair n f l { m with tx := m.tx ++ [x] } := by
    rw [Work.send_room x (by rw [Work.lane_pair_follower hne]; exact hm), Work.onLane_pair_follower hne]
  rw [stepLanes_pair hf, Work.sendAll, List.foldl_cons, List.foldl_cons, List.foldl_nil, hleader, hfollower]

theorem Work.stopStep_pair (hf : fusedFollower n c.step = some f) :
    (w.pair n f l m).stopStep n c.step = w.pair n f l.stopped m.pairStopped := by
  simp only [Work.stopStep, hf, Work.stopAll_eq, Work.stopPair_eq, Work.onLane_pair_leader,
    Work.onLane_pair_follower (fusedFollower_ne hf).symm]

theorem Work.endPair_pair (hf : fusedFollower n c.step = some f) :
    (w.pair n f l m).endPair n c.step = w.pair n f l m.unpaired := by
  simp only [Work.endPair, hf]
  exact Work.onLane_pair_follower (fusedFollower_ne hf).symm Lane.unpaired

/-- A release looks at no lane (R28). -/
theorem Work.releaseStep_pair : (w.pair n f l m).releaseStep e n c = (w.releaseStep e n c).pair n f l m := by
  have hbeside := w.releaseStep_beside (w.pair n f l m).lanes w.chain.holds w.chain.holdOff e n c
  have hrel : w.releaseStep e n c = _ := w.releaseStep_releases e n c
  have hlanes : (w.releaseStep e n c).lanes = w.lanes := by rw [hrel]
  have hholds : (w.releaseStep e n c).chain.holds = w.chain.holds := by rw [hrel]
  have hoff : (w.releaseStep e n c).chain.holdOff = w.chain.holdOff := by rw [hrel]
  refine Eq.trans hbeside ?_
  simp only [Work.beside, Work.pair, Work.setLane, hlanes, ← hholds, ← hoff]

/-! ### The end of the pair -/

/-- The delivery of a host's step, up to the freeze that another lane's step may have on its lane (R106). -/
theorem Work.delivery_host (w : Work) (e : Env) (n : LaneId) (r : ResultRecord) (ho : c.step.origin = .host) :
    ∃ k, w.delivery e n c r =
      { (w.onLane n fun l => l.delivered (verdictHalts (e.cfg n) r.verdict)).endPair n c.step with
        results := w.results ++ [r], lastDelivering := n, notices := k } := by
  obtain ⟨k₁, hentered⟩ := w.enterResult_notices n r
  obtain ⟨k₂, hnoted⟩ := ((w.enterResult n r).setCur n none).noteRemoval_notices e n
    (((w.enterResult n r).lane n).queue.length + 1) (((w.enterResult n r).lane n).queue.length + 1 - 1)
  obtain ⟨k₃, hraised⟩ := ({ (w.enterResult n r).setCur n none with notices := k₂ } : Work).raiseVerdict_notices (e.cfg n) n
    r.verdict
  refine ⟨k₃, ?_⟩
  simp only [Work.delivery, ho, reduceCtorEq, if_false]
  rw [hnoted, hraised, hentered, ← Work.endPair_fields]
  exact congrArg (fun v : Work => ({ v with results := w.results ++ [r], lastDelivering := n, notices := k₃ } : Work).endPair
    n c.step) (w.onLane_onLane n (fun l => { l with cur := none }) fun l =>
      l.afterDelivery (verdictHalts (e.cfg n) r.verdict))

theorem Work.tryFollow_leader (w : Work) (e : Env) (h : leaderOf n = none) : w.tryFollow e n = w := by
  simp only [Work.tryFollow, h]

theorem Work.enterDeliver_pair (r : ResultRecord) (hf : fusedFollower n c.step = some f) (ho : c.step.origin = .host)
    (hlen : w.results.length < 128) :
    ∃ k, (w.pair n f l m).enterDeliver e n c r =
      { w.pair n f (l.delivered (verdictHalts (e.cfg n) r.verdict)) m.unpaired with
        results := w.results ++ [r], lastDelivering := n, notices := k } := by
  obtain ⟨d, hd⟩ : ∃ d : CurStep, d = { c with phase := .deliver, resume := none, record := some r } := ⟨_, rfl⟩
  have hdf : fusedFollower n d.step = some f := by rw [hd]; exact hf
  have hset : (w.pair n f l m).setCur n (some d) = w.pair n f { l with cur := some d } m := Work.onLane_pair_leader _
  obtain ⟨k, hk⟩ := (w.pair n f { l with cur := some d } m).delivery_host e n (c := d) r (by rw [hd]; exact ho)
  rw [Work.onLane_pair_leader, Work.endPair_pair hdf] at hk
  refine ⟨k, ?_⟩
  rw [Work.enterDeliver, ← hd, hset, Work.offer_delivers e (c := d) (r := r) (by rw [Work.lane_pair_leader]) (by rw [hd])
    (by rw [hd]) (by exact hlen), Work.deliver_eq, Work.tryFollow_leader _ _ (leaderOf_leader hdf), hk]
  rfl

/-- What the end of a FUSED step leaves: its record, both lanes, and its nodes released (R106, R138). -/
structure Work.PairEnds (w : Work) (n f : LaneId) (nodes : List (Nat × Fin 20)) (r : ResultRecord)
    (l m : Lane) (v : Work) : Prop where
  results : v.results = w.results ++ [r]
  leader : v.lane n = l
  follower : v.lane f = m
  others : ∀ a, a ≠ n → a ≠ f → v.lane a = w.lane a
  holder : ∀ k, (v.node k).holder =
    if k ∈ nodes.map (·.1) ∧ (w.node k).holder = .lane n then .none else (w.node k).holder

/-- A FUSED step of a host completes with room in the result queue: its lines fall on both lanes, its nodes are
released and its record is delivered, which ends the pair (R105, R106, R138). -/
theorem Work.complete_pair {x : Verdict} (hf : fusedFollower n c.step = some f) (ho : c.step.origin = .host)
    (hord : w.nodes.order = []) (hlen : w.results.length < 128) :
    w.PairEnds n f c.nodes (c.toRecord n x) ((l.driven (e.cfg n) false false).delivered (verdictHalts (e.cfg n) x))
      (m.driven (e.cfg f) false false).unpaired (((w.pair n f l m).complete e n c x).finish e) := by
  have hrel := w.releaseStep_releases e n c
  obtain ⟨k, hk⟩ := Work.enterDeliver_pair (w := w.releaseStep e n c) (e := e) (l := l.driven (e.cfg n) false false)
    (m := m.driven (e.cfg f) false false) (c.toRecord n x) hf ho (by rw [hrel.results]; exact hlen)
  obtain ⟨u, hu⟩ : ∃ u, u = (w.pair n f l m).complete e n c x := ⟨_, rfl⟩
  rw [← hu]
  rw [Work.complete, Work.driveAll_pair hf, Work.releaseStep_pair] at hu
  have hcomplete := hu.trans hk
  have hnodes : u.nodes = (w.releaseStep e n c).nodes := by rw [hcomplete]; rfl
  have hlane : ∀ a, u.lane a = ((w.releaseStep e n c).pair n f
      ((l.driven (e.cfg n) false false).delivered (verdictHalts (e.cfg n) x))
      (m.driven (e.cfg f) false false).unpaired).lane a := fun a => by rw [hcomplete]; rfl
  obtain ⟨v, hv, hvlanes, hvresults, hvnode⟩ := Work.finish_serves (w := u) (by rw [hnodes, hrel.order]; exact hord) e
  have hvlane : ∀ a, v.lane a = u.lane a := fun a => congrArg (fun ls : Vector Lane 4 => ls[a.val]) hvlanes
  rw [hv]
  refine ⟨?_, ?_, ?_, fun a hn hfa => ?_, fun i => ?_⟩
  · rw [hvresults, hcomplete]
    exact congrArg (· ++ _) hrel.results
  · rw [hvlane, hlane, Work.lane_pair_leader]
  · rw [hvlane, hlane, Work.lane_pair_follower (fusedFollower_ne hf).symm]
  · rw [hvlane, hlane, Work.lane_pair_ne hn hfa, hrel.lane]
  · obtain ⟨b, hb⟩ := hvnode i
    rw [hb, Work.node_congr hnodes]
    exact w.holder_releaseStep e n c i

end Pair

end Sys2Proof.Machine
end

section
/-! PROOFS, family 05_lane_sequencing.md: the readings of a fused pair, its next attempt and its TIMEOUT; O57. -/

namespace Sys2Proof.Machine

/-! ### The evaluation of an attempt -/

section Evaluation

variable {w : Work} {e : Env} {n : LaneId} {c : CurStep} {r : Reading}

theorem Work.evaluate_completes (hr : c.leader.reading = some r)
    (h : (c.evaluated e n r).2 ≠ .fail ∨ c.attempt = c.step.repeats) :
    w.evaluate e n c = w.complete e n (c.evaluated e n r).1 (c.evaluated e n r).2.verdict := by
  simp only [Work.evaluate, hr]
  generalize c.evaluated e n r = x at h
  obtain ⟨d, o⟩ := x
  cases o with
  | pass => rfl
  | unitFault => rfl
  | fail => exact if_pos (h.resolve_left fun hne => hne rfl)

theorem Work.evaluate_restarts (hr : c.leader.reading = some r) (h : (c.evaluated e n r).2 = .fail)
    (hrep : c.attempt ≠ c.step.repeats) : w.evaluate e n c = w.repeatStep e n (c.evaluated e n r).1 := by
  simp only [Work.evaluate, hr, h]
  exact if_neg hrep

end Evaluation

/-- The value, the saturated mark and the outcome of one side (R158 to R163). -/
abbrev SideResult := Int × Bool × AttemptOutcome

/-- The leader's side of an attempt: its own lane's correction and its own limits (R143). -/
def CurStep.leaderResult (c : CurStep) (e : Env) (n : LaneId) (r : Reading) : SideResult :=
  evaluateReading (e.cfg n) c.step.low c.step.high r

/-- The follower's side of an attempt (R143). -/
def CurStep.followerResult (c : CurStep) (e : Env) (f : LaneId) (r : Reading) : SideResult :=
  evaluateReading (e.cfg f) c.step.followerLow c.step.followerHigh r

/-- The step after the evaluation of both its sides (R143, R164, R165). -/
def CurStep.judgedPair (c : CurStep) (x y : SideResult) : CurStep :=
  { c with
    leader := c.leader.evaluated x.1, follower := c.follower.evaluated y.1
    attemptsUsed := c.attemptsUsed + 1, saturated := x.2.1 || y.2.1 }

theorem combineOutcomes_verdict (a b : AttemptOutcome) :
    (combineOutcomes a b).verdict =
      if a = .unitFault ∨ b = .unitFault then .unitFault else if a = .pass ∧ b = .pass then .pass else .fail := by
  cases a <;> cases b <;> rfl

theorem combineOutcomes_fail_iff (a b : AttemptOutcome) :
    combineOutcomes a b = .fail ↔ a ≠ .unitFault ∧ b ≠ .unitFault ∧ ¬ (a = .pass ∧ b = .pass) := by
  cases a <;> cases b <;> simp [combineOutcomes]

section Pair

variable {s : State} {w : Work} {e : Env} {n f : LaneId} {c : CurStep} {l m : Lane}

/-! ### A RESULT on the follower's link -/

/-- The lane of a leader whose attempt has its last reading: C3 stops (R101). -/
def Lane.allRead (l : Lane) (c : CurStep) : Lane := { l with c3 := l.c3.stop, cur := some c }

/-- A FUSED step in RESULT_WAIT whose follower's reading has still to come (R142). -/
structure State.AwaitsFollower (s : State) (n f : LaneId) (c : CurStep) : Prop where
  follower : fusedFollower n c.step = some f
  run : (s.work.lane f).run = .following
  cur : (s.work.lane n).cur = some c
  phase : c.phase = .resultWait
  reading : c.follower.reading = none

/-- The step with its follower's reading taken has every reading when its leader's is there. -/
theorem CurStep.allRead_withReading (hfused : c.step.flags.fused = true) (r : Reading) :
    (c.withReading true r).allRead = c.leader.reading.isSome := by
  simp [CurStep.allRead, CurStep.withReading, CurStep.onSide, hfused]

section Result

variable {attempt flag : Byte} {raw : BitVec 24} {g : ReadingFlag}

theorem exec_result_follower (h : s.AwaitsFollower n f c) (hflag : readingFlagOf flag = some g)
    (hattempt : attempt.toNat = c.attempt) :
    exec (.result f c.step.tag attempt raw flag) s =
      .next
        { s with
          work :=
            (if c.leader.reading.isSome = true then
              (s.work.pair n f ((s.work.lane n).allRead (c.withReading true ⟨raw.toInt, g⟩))
                { s.work.lane f with rx := .hunting }).evaluate s.env n (c.withReading true ⟨raw.toInt, g⟩)
            else
              s.work.pair n f { s.work.lane n with cur := some (c.withReading true ⟨raw.toInt, g⟩) }
                { s.work.lane f with rx := .hunting }).finish s.env } := by
  obtain ⟨hf, hrun, hc, hp, hr⟩ := h
  obtain ⟨hlead, hfused⟩ := (fusedFollower_leaderOf c.step).1 hf
  have hlane : (s.work.hunt f).lane n = s.work.lane n := s.work.lane_hunt_ne (fusedFollower_ne hf).symm
  have hset (d : CurStep) : (s.work.hunt f).setCur n (some d) =
      s.work.pair n f { s.work.lane n with cur := some d } { s.work.lane f with rx := .hunting } := by
    rw [Work.setCur, Work.onLane, hlane]; rfl
  rw [exec_result hflag, Work.takeResult_read (Work.owner_hunt_leader hrun hlead) (by rw [hlane]; exact hc)
    ⟨CurStep.matches_iff.2 ⟨rfl, hattempt⟩, hp, hr⟩, hset, Work.onLane_pair_leader, CurStep.allRead_withReading hfused]
  rfl

theorem exec_result_first (h : s.AwaitsFollower n f c) (hflag : readingFlagOf flag = some g)
    (hattempt : attempt.toNat = c.attempt) (hnone : c.leader.reading = none) :
    exec (.result f c.step.tag attempt raw flag) s =
      .next
        { s with
          work := (s.work.pair n f { s.work.lane n with cur := some (c.withReading true ⟨raw.toInt, g⟩) }
            { s.work.lane f with rx := .hunting }).finish s.env } := by
  rw [exec_result_follower h hflag hattempt, hnone]
  rfl

theorem exec_result_second {first : Reading} (h : s.AwaitsFollower n f c) (hflag : readingFlagOf flag = some g)
    (hattempt : attempt.toNat = c.attempt) (hfirst : c.leader.reading = some first) :
    exec (.result f c.step.tag attempt raw flag) s =
      .next
        { s with
          work := ((s.work.pair n f ((s.work.lane n).allRead (c.withReading true ⟨raw.toInt, g⟩))
            { s.work.lane f with rx := .hunting }).evaluate s.env n
              (c.withReading true ⟨raw.toInt, g⟩)).finish s.env } := by
  rw [exec_result_follower h hflag hattempt, hfirst]
  rfl

end Result

theorem CurStep.toRecord_judgedPair (hfused : c.step.flags.fused = true) (ho : c.step.origin = .host) (first second : Reading)
    (hr : c.leader.reading = some first) (x y : SideResult) (v : Verdict) :
    ((c.withReading true second).judgedPair x y).toRecord n v =
      { tag := c.step.tag, lane := n, origin := .host, error := none, attempts := c.attemptsUsed + 1
        verdict := v, value := x.1, raw := some first.raw, settle := c.captured, saturated := x.2.1 || y.2.1
        capped := c.capped, overpost := c.overpost, token := c.token, follower := some (y.1, some second.raw) } := by
  simp [CurStep.toRecord, CurStep.judgedPair, CurStep.withReading, CurStep.onSide, SideState.evaluated, hfused, ho, hr]

/-! ### The next attempt -/

/-- The SETUP of the attempt behind the present one (R103). -/
def CurStep.nextSetup (c : CurStep) : UnitMessage :=
  .setup c.step.tag (c.attempt + 1) c.step.function c.step.range c.step.stimulus

/-- The step at the start of the attempt behind two readings (R103, R143, R165). -/
theorem CurStep.nextAttempt_judgedPair {first second : Reading} (hr : c.leader.reading = some first) (x y : SideResult) :
    ((c.withReading true second).judgedPair x y).nextAttempt =
      { c with
        attempt := c.attempt + 1, settle := settleOf c.step.settle (c.attempt + 1)
        attemptsUsed := c.attemptsUsed + 1, saturated := x.2.1 || y.2.1
        leader := ⟨false, none, none, x.1, some first.raw⟩
        follower := ⟨false, none, none, y.1, some second.raw⟩ } := by
  simp [CurStep.nextAttempt, CurStep.judgedPair, CurStep.withReading, CurStep.onSide, SideState.evaluated, SideState.next, hr]

/-- The next attempt of a FUSED step with a FIXED settle that counts: SETUP on both links, the lines low on both lanes
and C0 of the leader started (R103, R143). -/
theorem Work.repeatStep_pair (hf : fusedFollower n c.step = some f) (had : c.step.flags.adaptive = false)
    (hset : c.step.settle ≠ 0) (hl : l.tx.length < 32) (hm : m.tx.length < 32) :
    (w.pair n f l m).repeatStep e n c =
      w.pair n f
        (({ l with
            cur := some { c.nextAttempt with phase := .settle }
            c0 := Channel.startDown e.clock c.step.flags.coarse (settleOf c.step.settle (c.attempt + 1))
            tx := l.tx ++ [c.nextSetup] } : Lane).driven (e.cfg n) false false)
        (({ m with tx := m.tx ++ [c.nextSetup] } : Lane).driven (e.cfg f) false false) := by
  have hadn : c.nextAttempt.step.flags.adaptive = false := had
  have hcounts : c.nextAttempt.settleAtStart e n = none := by
    simp only [CurStep.settleAtStart, hadn, Bool.false_eq_true, if_false]
    exact if_neg (settleOf_ne_zero hset _)
  have hchannel : c.nextAttempt.settleChannel e =
      Channel.startDown e.clock c.step.flags.coarse (settleOf c.step.settle (c.attempt + 1)) := by
    simp only [CurStep.settleChannel, hadn, Bool.false_eq_true, if_false]
    rfl
  have hsetup : ∀ l m : Lane, l.tx.length < 32 → m.tx.length < 32 → (w.pair n f l m).sendSetup n c.nextAttempt =
      w.pair n f { l with tx := l.tx ++ [c.nextSetup] } { m with tx := m.tx ++ [c.nextSetup] } :=
    fun l m hl hm => Work.sendAll_pair (c := c.nextAttempt) hf c.nextSetup hl hm
  rw [Work.repeatStep, Work.driveAll_pair hf, hsetup _ _ (by exact hl) (by exact hm), Work.startSettle_counts hcounts, hchannel]
  exact Work.onLane_pair_leader _

/-! ### TIMEOUT -/

/-- The leader's lane when C3 has expired: CANCEL to its unit and every channel stopped (R102, R142). -/
def Lane.watchExpired (l : Lane) (c : CurStep) : Lane :=
  ({ l with c3 := l.c3.expire, tx := l.tx ++ [.cancel c.step.tag c.attempt] } : Lane).stopped

/-- The follower's lane then: CANCEL to its unit, C1 and C2 stopped (R142). -/
def Lane.watchFollowed (m : Lane) (c : CurStep) : Lane :=
  ({ m with tx := m.tx ++ [.cancel c.step.tag c.attempt] } : Lane).pairStopped

theorem exec_timeout_pair (hf : fusedFollower n c.step = some f) (hc : (s.work.lane n).cur = some c)
    (hp : c.phase = .readyWait ∨ c.phase = .resultWait) (hx : (s.work.lane n).c3.expiring = true)
    (hl : (s.work.lane n).tx.length < 32) (hm : (s.work.lane f).tx.length < 32) :
    exec (.timeout n) s =
      .next
        { s with
          work :=
            ((s.work.pair n f ((s.work.lane n).watchExpired c) ((s.work.lane f).watchFollowed c)).complete s.env n
              (c.ended s.env n) .timeout).finish s.env } := by
  change execTimeout n s = _
  simp only [execTimeout, onWork, hc, hx, and_true, if_pos hp]
  rw [Work.onLane_eq_pair s.work n f, Work.sendAll_pair hf _ (by exact hl) hm, Work.stopStep_pair hf]
  rfl

theorem CurStep.toRecord_ended_pair (hfused : c.step.flags.fused = true) (ho : c.step.origin = .host) :
    (c.ended e n).toRecord n .timeout =
      { tag := c.step.tag, lane := n, origin := .host, verdict := .timeout, error := none
        attempts := c.attemptsUsed + 1
        value := if (e.cfg n).timeoutAction = .substitute then 8388607 else -8388608
        raw := c.leader.raw, settle := c.captured, saturated := (e.cfg n).timeoutAction = .substitute, capped := c.capped
        overpost := c.overpost, token := c.token
        follower :=
          some (if (e.cfg n).timeoutAction = .substitute then 8388607 else -8388608, c.follower.raw) } := by
  cases h : (e.cfg n).timeoutAction <;>
    simp [CurStep.toRecord, CurStep.ended, CurStep.timedOut, h, ho, hfused, SideState.next, Config.maxValue, Config.noReading]

/-! ### The two ways from the second reading -/

section Ways

variable {first second : Reading}

/-- The outcome of an attempt from its two readings (R143). -/
def CurStep.pairOutcome (c : CurStep) (e : Env) (n f : LaneId) (first second : Reading) : AttemptOutcome :=
  combineOutcomes (c.leaderResult e n first).2.2 (c.followerResult e f second).2.2

/-- The step after the evaluation of its two readings. -/
def CurStep.judgedReadings (c : CurStep) (e : Env) (n f : LaneId) (first second : Reading) : CurStep :=
  (c.withReading true second).judgedPair (c.leaderResult e n first) (c.followerResult e f second)

theorem CurStep.evaluated_withReading (hf : fusedFollower n c.step = some f) (e : Env) (first second : Reading) :
    (c.withReading true second).evaluated e n first =
      (c.judgedReadings e n f first second, c.pairOutcome e n f first second) := by
  obtain ⟨hlead, hfused⟩ := (fusedFollower_leaderOf (c.withReading true second).step).1 hf
  have hnext : ∀ n f : LaneId, leaderOf f = some n → followerOf n = f := by decide
  have hread : (c.withReading true second).follower.reading = some second := rfl
  simp only [CurStep.evaluated, hfused, hread, hnext n f hlead]
  rfl

/-- Two readings that end a host's FUSED step end its pair (R105, R138, R143). -/
theorem Work.evaluate_pair_ends (hf : fusedFollower n c.step = some f) (hfirst : c.leader.reading = some first)
    (hend : c.pairOutcome e n f first second ≠ .fail ∨ c.attempt = c.step.repeats) (ho : c.step.origin = .host)
    (hord : w.nodes.order = []) (hlen : w.results.length < 128) :
    w.PairEnds n f c.nodes
      ((c.judgedReadings e n f first second).toRecord n (c.pairOutcome e n f first second).verdict)
      ((l.driven (e.cfg n) false false).delivered (verdictHalts (e.cfg n) (c.pairOutcome e n f first second).verdict))
      (m.driven (e.cfg f) false false).unpaired
      (((w.pair n f l m).evaluate e n (c.withReading true second)).finish e) := by
  have heval := CurStep.evaluated_withReading hf e first second
  rw [Work.evaluate_completes (c := c.withReading true second) hfirst (by rw [heval]; exact hend), heval]
  exact Work.complete_pair (c := c.judgedReadings e n f first second) hf ho hord hlen

/-- An earlier FAIL with a FIXED settle starts the pair's next attempt (R103, R143). -/
theorem Work.evaluate_pair_restarts (hf : fusedFollower n c.step = some f) (hfirst : c.leader.reading = some first)
    (hfail : c.pairOutcome e n f first second = .fail) (hrep : c.attempt ≠ c.step.repeats)
    (had : c.step.flags.adaptive = false) (hset : c.step.settle ≠ 0) (hl : l.tx.length < 32) (hm : m.tx.length < 32) :
    (w.pair n f l m).evaluate e n (c.withReading true second) =
      w.pair n f
        (({ l with
            cur := some { (c.judgedReadings e n f first second).nextAttempt with phase := .settle }
            c0 := Channel.startDown e.clock c.step.flags.coarse (settleOf c.step.settle (c.attempt + 1))
            tx := l.tx ++ [c.nextSetup] } : Lane).driven (e.cfg n) false false)
        (({ m with tx := m.tx ++ [c.nextSetup] } : Lane).driven (e.cfg f) false false) := by
  have heval := CurStep.evaluated_withReading hf e first second
  rw [Work.evaluate_restarts (c := c.withReading true second) hfirst (by rw [heval]; exact hfail) hrep, heval]
  exact Work.repeatStep_pair (c := c.judgedReadings e n f first second) hf had hset hl hm

end Ways

/-- The lanes that the statement pairs are a leader and its follower. -/
theorem fusedFollower_of_pair {r : StepRecord} (h : (n = 0 ∧ f = 1) ∨ (n = 2 ∧ f = 3)) (hfused : r.flags.fused = true) :
    fusedFollower n r = some f := by
  have hlead : leaderOf f = some n := by rcases h with ⟨rfl, rfl⟩ | ⟨rfl, rfl⟩ <;> rfl
  exact (fusedFollower_leaderOf r).2 ⟨hlead, hfused⟩

end Pair

/-- Settles O57: the second reading evaluates the attempt of both sides, which ends the pair or starts its next attempt;
C3's expiry ends it as well. -/
theorem fusedReadingsEndThePairTogether : Obligations.FusedReadingsEndThePairTogether := by
  refine ⟨?_, ?_⟩
  · intro s n f c attempt flag raw g hpair l m taken auto hflag hattempt hrun hc hp hfused hr
    have hf := fusedFollower_of_pair hpair hfused
    have hawaits : s.AwaitsFollower n f c := ⟨hf, hrun, hc, hp, hr⟩
    refine ⟨fun hnone hrest => ?_, ?_, ?_⟩
    · rw [exec_result_first hawaits hflag hattempt hnone, Work.finish_rested (by exact hrest.1)]
      rfl
    · intro first q hfirst hq ho hz hh hord hlen x y fault pass hend
      have houtcome : c.pairOutcome s.env n f first taken ≠ .fail ∨ c.attempt = c.step.repeats := by
        rw [Ne, CurStep.pairOutcome, combineOutcomes_fail_iff]
        rcases hend with hfault | hpass | hlast
        · exact .inl fun ⟨hx, hy, _⟩ => hfault.elim hx hy
        · exact .inl fun ⟨_, _, hnot⟩ => hnot hpass
        · exact .inr hlast
      have hends := Work.evaluate_pair_ends (w := s.work)
        (l := l.allRead (c.withReading true taken)) (m := { m with rx := .hunting }) hf hfirst houtcome ho hord hlen
      rw [CurStep.judgedReadings, CurStep.toRecord_judgedPair hfused ho first taken hfirst, Lane.delivered_unheld (by exact hh),
        Lane.unpaired_following (by exact hrun) (by exact hq), CurStep.pairOutcome, combineOutcomes_verdict] at hends
      refine ⟨_, exec_result_second hawaits hflag hattempt hfirst, hends.results, ?_, ?_, ?_, ?_, fun a ha => ?_,
        hends.holder⟩
      · rw [hends.leader]
      · rw [hends.follower]
      · rw [hends.follower]
      · rw [hends.follower]
      · rcases ha with rfl | rfl
        · rw [hends.leader]; exact ⟨rfl, rfl, rfl, rfl⟩
        · rw [hends.follower]; exact ⟨rfl, rfl, rfl, rfl⟩
    · intro first hfirst hrest had hset hltx hmtx x y settle setup low hx hy hnot hrep
      have hfail : c.pairOutcome s.env n f first taken = .fail := (combineOutcomes_fail_iff _ _).2 ⟨hx, hy, hnot⟩
      have hlow : ∀ (a : LaneId) (k : Lane), low a k = k.driven (s.env.cfg a) false false := fun a k =>
        (k.driven_eq _ _ _).symm
      rw [exec_result_second hawaits hflag hattempt hfirst,
        Work.evaluate_pair_restarts hf hfirst hfail hrep had hset (by exact hltx) (by exact hmtx),
        Work.finish_rested (by exact hrest.1), CurStep.judgedReadings, CurStep.nextAttempt_judgedPair hfirst, hlow, hlow]
      rfl
  · intro s n f c q hpair l m action low hc hfused hp hx hrun hq ho hh hord hltx hmtx hlen
    have hf := fusedFollower_of_pair hpair hfused
    have hlow : ∀ (a : LaneId) (k : Lane), low a k = k.driven (s.env.cfg a) false false := fun a k =>
      (k.driven_eq _ _ _).symm
    have hends := Work.complete_pair (w := s.work) (e := s.env) (c := c.ended s.env n) (l := l.watchExpired c)
      (m := m.watchFollowed c) (x := .timeout) hf ho hord hlen
    rw [CurStep.toRecord_ended_pair hfused ho, Lane.delivered_unheld (by exact hh),
      Lane.unpaired_following (by exact hrun) (by exact hq)] at hends
    refine ⟨_, exec_timeout_pair hf hc hp hx hltx hmtx, hends.results, ?_, ?_, hends.holder, hends.others⟩
    · rw [hends.leader, hlow]
      simp only [verdictHalts, decide_eq_true_eq]
      rfl
    · rw [hends.follower, hlow]
      rfl

end Sys2Proof.Machine
end

section
/-! PROOFS, family 06_timing_channels.md: the event of the part's own that comes next; O3. -/

namespace Sys2Proof.Machine

theorem step_eq_idle {s : State} (hp : s.pending = []) : step s = .next (idle s) := by simp [step, hp]

/-- A race key below the number of the events that stand brings the event at its place (log entries 1 and 2). -/
theorem step_of_standing {s : State} {k : Nat} (hp : s.pending = []) (hk : k < (standing s).length) :
    step { s with race := k } =
      .next { s with pending := [(standing s)[k]], race := k / (standing s).length } := by
  have hidle : idle { s with race := k } =
      { s with pending := [(standing s)[k]], race := k / (standing s).length } := by
    have hstand : standing { s with race := k } = standing s := rfl
    rw [idle, hstand]
    split
    · next hnil => simp [hnil] at hk
    · next i is hcons =>
        have hk' : k < (i :: is).length := hcons ▸ hk
        simp only [hcons, List.getD_eq_getElem?_getD, ← List.length_cons (a := i), Nat.mod_eq_of_lt hk',
          List.getElem?_eq_getElem hk', Option.getD_some]
  rw [step_eq_idle (s := { s with race := k }) hp, hidle]

/-- Settles O3: the race key that is the event's place in the list of those that stand. -/
theorem everyStandingEventCanComeNext : Obligations.EveryStandingEventCanComeNext := by
  intro s i hp hi
  obtain ⟨k, hk, rfl⟩ := List.getElem_of_mem hi
  exact ⟨k, step_of_standing hp hk⟩

end Sys2Proof.Machine
end

section
/-! PROOFS, family 06_timing_channels.md: the channels' count ticks, expiry and counting up; O42. -/

namespace Sys2Proof.Machine

/-! ### Count ticks and the aligned start (R112) -/

/-- The ticks of the time base in one count unit of a scale. -/
def countUnit (coarse : Bool) : Nat := if coarse then 64 else 1

theorem countUnit_pos (coarse : Bool) : 0 < countUnit coarse := by cases coarse <;> decide

theorem isCountTick_iff (coarse : Bool) (t : Time) :
    isCountTick coarse t = true ↔ t.toNat % countUnit coarse = 0 := by
  cases coarse <;> simp [isCountTick, countUnit, Nat.mod_one]

/-- The wrap of the time base keeps the count ticks' spacing, as 2^32 is a multiple of every count unit. -/
theorem toNat_add_mod_countUnit (coarse : Bool) (t : Time) (j : Nat) :
    (t + BitVec.ofNat 32 j).toNat % countUnit coarse = (t.toNat + j) % countUnit coarse := by
  have hdvd : countUnit coarse ∣ 2 ^ 32 := by cases coarse <;> decide
  rw [BitVec.toNat_add, BitVec.toNat_ofNat, Nat.mod_mod_of_dvd _ hdvd, Nat.add_mod, Nat.mod_mod_of_dvd _ hdvd,
    ← Nat.add_mod]

section AlignedStart

variable {coarse : Bool} {c : Clock}

/-- The ticks of the time base from a start event's microsecond to its aligned start. -/
def startLead (coarse : Bool) (c : Clock) : Nat := (alignedStart coarse c - c.time).toNat

theorem alignedStart_eq_add (coarse : Bool) (c : Clock) :
    alignedStart coarse c = c.time + BitVec.ofNat 32 (startLead coarse c) := by
  rw [startLead, BitVec.ofNat_toNat, BitVec.setWidth_eq, BitVec.add_comm, BitVec.sub_add_cancel]

theorem startLead_of_tick (hsub : c.sub = 0) (htick : c.time.toNat % countUnit coarse = 0) : startLead coarse c = 0 := by
  simp [startLead, alignedStart, hsub, isCountTick_iff, htick]

/-- A start between two count ticks, or after the clock of one, waits for the next. -/
theorem startLead_of_not_tick (h : c.sub = 0 → c.time.toNat % countUnit coarse ≠ 0) :
    startLead coarse c = countUnit coarse - c.time.toNat % countUnit coarse := by
  have hnot : ¬ (c.sub = 0 ∧ isCountTick coarse c.time = true) := fun ⟨hs, ht⟩ => h hs ((isCountTick_iff _ _).1 ht)
  rw [startLead, alignedStart, if_neg hnot]
  cases coarse with
  | false => simp [countUnit, Nat.mod_one]
  | true =>
      simp only [countUnit, Config.coarseUnit, if_true]
      bv_omega

/-- The first count tick at or after the start event stands `startLead` ticks on. -/
theorem startLead_spec (coarse : Bool) (c : Clock) :
    startLead coarse c ≤ countUnit coarse ∧ (c.time.toNat + startLead coarse c) % countUnit coarse = 0 ∧
      (c.sub ≠ 0 → 1 ≤ startLead coarse c) ∧
      ∀ j, j < startLead coarse c → c.sub = 0 ∨ 1 ≤ j → (c.time.toNat + j) % countUnit coarse ≠ 0 := by
  by_cases h : c.sub = 0 ∧ c.time.toNat % countUnit coarse = 0
  · simp [startLead_of_tick h.1 h.2, h.1, h.2]
  · have hnot : c.sub = 0 → c.time.toNat % countUnit coarse ≠ 0 := fun hs ht => h ⟨hs, ht⟩
    rw [startLead_of_not_tick hnot]
    cases coarse with
    | false =>
        simp only [countUnit, Bool.false_eq_true, if_false, Nat.mod_one] at hnot ⊢
        exact ⟨le_rfl, trivial, fun _ => le_rfl, fun j hj hor => by omega⟩
    | true =>
        simp only [countUnit, if_true] at hnot ⊢
        exact ⟨Nat.sub_le _ _, by omega, fun _ => by omega, fun j hj hor => by omega⟩

theorem startLead_le_countUnit : startLead coarse c ≤ countUnit coarse := (startLead_spec coarse c).1

/-- After the start event the count ticks are the aligned start and the ticks whole count units after it. -/
theorem isCountTick_after_start {k : Nat} (hk : 1 ≤ k) :
    isCountTick coarse (c.time + BitVec.ofNat 32 k) = true ↔
      startLead coarse c ≤ k ∧ countUnit coarse ∣ k - startLead coarse c := by
  obtain ⟨-, haligned, -, hfirst⟩ := startLead_spec coarse c
  rw [isCountTick_iff, toNat_add_mod_countUnit]
  rcases Nat.lt_or_ge k (startLead coarse c) with hlt | hge
  · simp [hfirst k hlt (.inr hk), Nat.not_le.2 hlt]
  · have hsplit : c.time.toNat + k = c.time.toNat + startLead coarse c + (k - startLead coarse c) := by omega
    rw [hsplit, ← Nat.dvd_iff_mod_eq_zero, Nat.dvd_add_right (Nat.dvd_of_mod_eq_zero haligned)]
    simp [hge]

end AlignedStart

/-! ### One count tick (R113, R122) -/

/-- A channel counts at a scale from the aligned start of a start event. -/
structure Channel.CountsFrom (ch : Channel) (coarse : Bool) (c : Clock) : Prop where
  counting : ch.counting = true
  scale : ch.coarse = coarse
  start : ch.start = some (alignedStart coarse c)

/-- What a count tick after the aligned start does to a channel. -/
def Channel.countTick (ch : Channel) : Channel :=
  if ch.adaptive then { ch with count := ch.count + 1, due := true }
  else if 1 < ch.count then { ch with count := ch.count - 1 }
  else { ch with due := true }

/-- What the tick `k` ticks after the start event does to a channel that counts. -/
theorem Channel.CountsFrom.tick {ch : Channel} {coarse : Bool} {c : Clock} (h : ch.CountsFrom coarse c) {k : Nat}
    (hk : 1 ≤ k) (hbound : k < 2 ^ 31) :
    ch.tick (c.time + BitVec.ofNat 32 k) =
      if k = startLead coarse c then { ch with due := ch.adaptive }
      else if startLead coarse c < k ∧ countUnit coarse ∣ k - startLead coarse c then ch.countTick
      else ch := by
  obtain ⟨hcounting, rfl, hstart⟩ := h
  have hlead : startLead ch.coarse c ≤ 64 := startLead_le_countUnit.trans (by cases ch.coarse <;> decide)
  have heq : c.time + BitVec.ofNat 32 k = alignedStart ch.coarse c ↔ k = startLead ch.coarse c := by
    rw [alignedStart_eq_add]
    bv_omega
  have hreached : startLead ch.coarse c ≤ k →
      reached (alignedStart ch.coarse c) (c.time + BitVec.ofNat 32 k) = true := by
    intro hle
    rw [alignedStart_eq_add, reached, decide_eq_true_eq]
    bv_omega
  rw [Channel.tick, hcounting, hstart]
  simp only [isCountTick_after_start hk, heq]
  rcases Nat.lt_trichotomy k (startLead ch.coarse c) with hlt | rfl | hgt
  · simp [Nat.not_le.2 hlt, Nat.ne_of_lt hlt, Nat.lt_asymm hlt]
  · simp
  · simp only [hgt, hgt.le, Nat.ne_of_gt hgt, hreached hgt.le, true_and, if_true, if_false, Channel.countTick,
      hcounting, hstart]

/-- A channel with another count and another mark of what is due. -/
def Channel.withCount (ch : Channel) (count : Nat) (due : Bool) : Channel := { ch with count, due }

theorem Channel.CountsFrom.withCount {ch : Channel} {coarse : Bool} {c : Clock} (h : ch.CountsFrom coarse c) (count : Nat)
    (due : Bool) : (ch.withCount count due).CountsFrom coarse c := ⟨h.counting, h.scale, h.start⟩

theorem Channel.startDown_countsFrom {c : Clock} {coarse : Bool} {v : Nat} (hv : 1 ≤ v) :
    (Channel.startDown c coarse v).CountsFrom coarse c := by
  have hv0 : v ≠ 0 := Nat.ne_of_gt hv
  exact ⟨by simp [Channel.startDown, hv0], rfl, by simp [Channel.startDown, hv0]⟩

theorem Channel.startUp_countsFrom (c : Clock) (coarse : Bool) (cap minimum : Nat) :
    (Channel.startUp c coarse cap minimum).CountsFrom coarse c := ⟨rfl, rfl, rfl⟩

theorem Channel.countTick_startDown {c : Clock} {coarse : Bool} {v n : Nat} (due : Bool) (hn : 1 < n) :
    ((Channel.startDown c coarse v).withCount n due).countTick = (Channel.startDown c coarse v).withCount (n - 1) due := by
  simp [Channel.countTick, Channel.withCount, Channel.startDown, hn]

theorem Channel.countTick_startDown_last {c : Clock} {coarse : Bool} {v : Nat} (due : Bool) :
    ((Channel.startDown c coarse v).withCount 1 due).countTick = (Channel.startDown c coarse v).withCount 1 true := rfl

theorem Channel.countTick_startUp {c : Clock} {coarse : Bool} {cap minimum n : Nat} (due : Bool) :
    ((Channel.startUp c coarse cap minimum).withCount n due).countTick =
      (Channel.startUp c coarse cap minimum).withCount (n + 1) true := rfl

/-! ### The ticks after a start -/

/-- A channel after the first `k` ticks past the time `t`. -/
def Channel.ticked (ch : Channel) (t : Time) (k : Nat) : Channel :=
  ((List.range k).map fun i => t + BitVec.ofNat 32 (i + 1)).foldl Channel.tick ch

@[simp] theorem Channel.ticked_zero (ch : Channel) (t : Time) : ch.ticked t 0 = ch := rfl

theorem Channel.ticked_succ (ch : Channel) (t : Time) (k : Nat) :
    ch.ticked t (k + 1) = (ch.ticked t k).tick (t + BitVec.ofNat 32 (k + 1)) := by
  simp [Channel.ticked, List.range_succ]

/-- The whole count units from the aligned start to the tick `k` ticks after the start event. -/
def countUnits (coarse : Bool) (c : Clock) (k : Nat) : Nat := (k - startLead coarse c) / countUnit coarse

section Counting

variable {coarse : Bool} {c : Clock} {k v : Nat}

@[simp] theorem countUnits_zero : countUnits coarse c 0 = 0 := by simp [countUnits]

/-- The units grow by one at each count tick after the aligned start. -/
theorem countUnits_succ :
    countUnits coarse c (k + 1) = countUnits coarse c k +
      if startLead coarse c < k + 1 ∧ countUnit coarse ∣ k + 1 - startLead coarse c then 1 else 0 := by
  rcases Nat.lt_or_ge (startLead coarse c) (k + 1) with hafter | hbefore
  · simp only [hafter, true_and]
    rw [countUnits, countUnits, Nat.succ_sub (Nat.le_of_lt_succ hafter), Nat.succ_div]
  · simp [countUnits, Nat.not_lt.2 hbefore, Nat.sub_eq_zero_of_le hbefore,
      Nat.sub_eq_zero_of_le (Nat.le_of_succ_le hbefore)]

theorem countUnits_lt (hv : 1 ≤ v) (h : k < startLead coarse c + v * countUnit coarse) : countUnits coarse c k < v := by
  have hpos : 0 < v * countUnit coarse := Nat.mul_pos hv (countUnit_pos coarse)
  rw [countUnits, Nat.div_lt_iff_lt_mul (countUnit_pos coarse)]
  omega

/-- No channel counts as long as half the range of the time base. -/
theorem ticks_of_count_lt (hv : v ≤ 65535) (h : k ≤ startLead coarse c + v * countUnit coarse) : k < 2 ^ 31 := by
  have hlead : startLead coarse c ≤ countUnit coarse := startLead_le_countUnit
  have hunit : countUnit coarse ≤ 64 := by cases coarse <;> decide
  have hprod : v * countUnit coarse ≤ 65535 * 64 := Nat.mul_le_mul hv hunit
  omega

/-- Before its expiry a count-down channel has lost one count for each whole unit since its aligned start (R113). -/
theorem ticked_startDown (hv : 1 ≤ v) (hmax : v ≤ 65535) (hk : k < startLead coarse c + v * countUnit coarse) :
    (Channel.startDown c coarse v).ticked c.time k =
      (Channel.startDown c coarse v).withCount (v - countUnits coarse c k) false := by
  induction k with
  | zero => simp [Channel.withCount, Channel.startDown]
  | succ k ih =>
      have hlt : countUnits coarse c (k + 1) < v := countUnits_lt hv hk
      rw [countUnits_succ] at hlt ⊢
      rw [Channel.ticked_succ, ih (Nat.lt_of_succ_lt hk),
        ((Channel.startDown_countsFrom hv).withCount _ _).tick k.succ_pos (ticks_of_count_lt hmax hk.le)]
      by_cases haligned : k + 1 = startLead coarse c
      · simp [haligned, Channel.withCount, Channel.startDown]
      · rw [if_neg haligned]
        split at hlt
        · next hcount =>
            rw [if_pos hcount, if_pos hcount, Channel.countTick_startDown _ (by omega), Nat.sub_sub]
        · next hnot => rw [if_neg hnot, if_neg hnot, Nat.add_zero]

/-- The last unit leaves the expiry to be taken (R113). -/
theorem ticked_startDown_expires (hv : 1 ≤ v) (hmax : v ≤ 65535) :
    (Channel.startDown c coarse v).ticked c.time (startLead coarse c + v * countUnit coarse) =
      (Channel.startDown c coarse v).withCount 1 true := by
  have hpos : 0 < v * countUnit coarse := Nat.mul_pos hv (countUnit_pos coarse)
  obtain ⟨k, hk⟩ : ∃ k, startLead coarse c + v * countUnit coarse = k + 1 := Nat.exists_eq_add_one.2 (by omega)
  have hspan : k + 1 - startLead coarse c = v * countUnit coarse := by omega
  have hcount : startLead coarse c < k + 1 ∧ countUnit coarse ∣ k + 1 - startLead coarse c :=
    ⟨by omega, hspan ▸ Nat.dvd_mul_left _ _⟩
  have hall : countUnits coarse c (k + 1) = v := by
    rw [countUnits, hspan, Nat.mul_div_cancel _ (countUnit_pos coarse)]
  rw [countUnits_succ, if_pos hcount] at hall
  rw [hk, Channel.ticked_succ, ticked_startDown hv hmax (by omega),
    ((Channel.startDown_countsFrom hv).withCount _ _).tick k.succ_pos (ticks_of_count_lt hmax hk.ge),
    if_neg (Nat.ne_of_gt hcount.1), if_pos hcount, show v - countUnits coarse c k = 1 by omega,
    Channel.countTick_startDown_last]

/-- A count-down channel's expiry stands at the end of its count and at no tick before (R113). -/
theorem expiring_ticked_startDown (hv : 1 ≤ v) (hmax : v ≤ 65535)
    (hk : k ≤ startLead coarse c + v * countUnit coarse) :
    ((Channel.startDown c coarse v).ticked c.time k).expiring = true ↔
      k = startLead coarse c + v * countUnit coarse := by
  rcases Nat.lt_or_eq_of_le hk with hlt | rfl
  · rw [ticked_startDown hv hmax hlt]
    simp [Channel.expiring, Channel.withCount, Nat.ne_of_lt hlt]
  · rw [ticked_startDown_expires hv hmax]
    simp [Channel.expiring, Channel.withCount, Channel.startDown, Nat.ne_of_gt hv]

/-- The first tick after the start event that leaves C0's settle test to be made (R122): the aligned start's, or the next
count tick where the start event is itself the aligned start. -/
def firstTest (coarse : Bool) (c : Clock) : Nat :=
  if startLead coarse c = 0 then countUnit coarse else startLead coarse c

theorem firstTest_pos (coarse : Bool) (c : Clock) : 0 < firstTest coarse c := by
  have hpos : 0 < countUnit coarse := countUnit_pos coarse
  rw [firstTest]
  split <;> omega

/-- At a count tick past the aligned start C0's settle test is due. -/
theorem firstTest_le_of_dvd (h : startLead coarse c < k ∧ countUnit coarse ∣ k - startLead coarse c) :
    firstTest coarse c ≤ k := by
  have hunit : countUnit coarse ≤ k - startLead coarse c := Nat.le_of_dvd (Nat.sub_pos_of_lt h.1) h.2
  rw [firstTest]
  split <;> omega

/-- No settle test falls due at a tick that is no count tick. -/
theorem firstTest_ne_of_not_dvd (hne : k ≠ startLead coarse c)
    (hnot : ¬ (startLead coarse c < k ∧ countUnit coarse ∣ k - startLead coarse c)) : firstTest coarse c ≠ k := by
  have hpos : 0 < countUnit coarse := countUnit_pos coarse
  rw [firstTest]
  split
  · next hzero =>
      rintro rfl
      exact hnot ⟨by omega, by simp [hzero]⟩
  · exact hne.symm

/-- C0 in ADAPTIVE mode has gained one count for each whole unit since its aligned start (R122). -/
theorem ticked_startUp (cap minimum : Nat) (hk : k < 2 ^ 31) :
    (Channel.startUp c coarse cap minimum).ticked c.time k =
      (Channel.startUp c coarse cap minimum).withCount (countUnits coarse c k) (decide (firstTest coarse c ≤ k)) := by
  induction k with
  | zero => simp [Channel.withCount, Channel.startUp, Nat.ne_of_gt (firstTest_pos coarse c)]
  | succ k ih =>
      rw [Channel.ticked_succ, ih (Nat.lt_of_succ_lt hk),
        ((Channel.startUp_countsFrom c coarse cap minimum).withCount _ _).tick k.succ_pos hk, countUnits_succ]
      by_cases haligned : k + 1 = startLead coarse c
      · have hfirst : firstTest coarse c = k + 1 := by rw [haligned, firstTest, if_neg (by omega)]
        simp [haligned ▸ hfirst, haligned, Channel.withCount, Channel.startUp]
      · rw [if_neg haligned]
        split
        · next hcount => rw [Channel.countTick_startUp, decide_eq_true (firstTest_le_of_dvd hcount)]
        · next hnot =>
            have hne : firstTest coarse c ≠ k + 1 := firstTest_ne_of_not_dvd haligned hnot
            simp [Nat.le_succ_iff, hne]

end Counting

/-- Settles O42: by induction on the ticks since the start event, each a count tick exactly at whole count units from the
aligned start. -/
theorem channelExpiresAfterItsCount : Obligations.ChannelExpiresAfterItsCount := by
  intro c coarse v k hmax
  obtain ⟨-, haligned, hafter, hfirst⟩ := startLead_spec coarse c
  refine ⟨⟨?_, hafter, fun j hj hor => ?_⟩, fun hv hk => expiring_ticked_startDown hv hmax hk, fun minimum hk => ?_⟩
  · rw [alignedStart_eq_add]
    exact (toNat_add_mod_countUnit coarse _ _).trans haligned
  · exact (toNat_add_mod_countUnit coarse _ _).trans_ne (hfirst j hj hor)
  · have hup := ticked_startUp (c := c) (coarse := coarse) v minimum (ticks_of_count_lt hmax hk)
    exact ⟨congrArg Channel.counting hup, congrArg Channel.count hup,
      (Bool.eq_iff_iff.1 (congrArg Channel.due hup)).trans decide_eq_true_iff⟩

end Sys2Proof.Machine
end

section
/-! PROOFS, family 08_tokens_and_cross_lane_waits.md: the token table, the lanes that wait on a token, and where a post
goes; O38 and O39. -/

namespace Sys2Proof.Machine

/-! ### Operands -/

theorem tokenOf_of_val_eq {b : Byte} {k : Fin 32} (h : k.val = b.toNat) : tokenOf b = some k := by
  have hb : b.toNat < 32 := h ▸ k.isLt
  rw [tokenOf, dif_pos hb]
  exact congrArg some (Fin.ext h.symm)

theorem tokenOf_of_ge {b : Byte} (h : 32 ≤ b.toNat) : tokenOf b = none := dif_neg (Nat.not_lt.mpr h)

/-! ### The lanes that wait -/

section Waiting

variable {w v : Work} {k : Fin 32} {n : LaneId}

theorem Work.mem_waitingLanes :
    n ∈ w.waitingLanes k ↔ ∃ c, (w.lane n).cur = some c ∧ c.phase = .tokenWait ∧ c.step.waitToken = some k := by
  rw [Work.waitingLanes, List.mem_filter]
  cases (w.lane n).cur <;> simp [mem_allLanes]

/-- The lanes that wait are read off the steps in progress alone. -/
theorem Work.waitingLanes_congr (h : ∀ m : LaneId, (v.lane m).cur = (w.lane m).cur) (k : Fin 32) :
    v.waitingLanes k = w.waitingLanes k := by
  simp only [Work.waitingLanes, h]

theorem Work.waitingLanes_setLane {l : Lane} (h : l.cur = (w.lane n).cur) (k : Fin 32) :
    (w.setLane n l).waitingLanes k = w.waitingLanes k := by
  refine Work.waitingLanes_congr (fun m => ?_) k
  by_cases hm : m = n
  · subst hm; rw [Work.lane_setLane, h]
  · rw [Work.lane_setLane_ne _ _ hm]

theorem Work.waitingLanes_sorted (w : Work) (k : Fin 32) : (w.waitingLanes k).Pairwise (· < ·) :=
  List.Pairwise.filter _ (by decide)

/-- A waiting lane with none below it is the first of the waiting lanes (R152). -/
theorem Work.waitingLanes_eq_cons (hn : n ∈ w.waitingLanes k) (hlow : ∀ m : LaneId, m < n → m ∉ w.waitingLanes k) :
    ∃ rest, w.waitingLanes k = n :: rest := by
  have hsorted := w.waitingLanes_sorted k
  generalize w.waitingLanes k = ls at *
  cases ls with
  | nil => simp at hn
  | cons m rest =>
    rcases List.mem_cons.1 hn with rfl | hrest
    · exact ⟨rest, rfl⟩
    · exact absurd (List.mem_cons_self ..) (hlow m (List.rel_of_pairwise_cons hsorted hrest))

end Waiting

/-! ### A post at the token table -/

section Post

variable {w : Work} {k : Fin 32} {p : Poster × Byte}

/-- With no step waiting, a post stands in its unposted token (R147). -/
theorem Work.postToken_unwaited (ht : w.tokens[k.val] = none) (hw : w.waitingLanes k = []) :
    w.postToken k p = { w with tokens := w.tokens.set k.val (some p) } := by
  simp [Work.postToken, ht, hw]

/-- The first waiting lane consumes the post (R152). -/
theorem Work.postToken_waited {n : LaneId} {c : CurStep} {rest : List LaneId} (ht : w.tokens[k.val] = none)
    (hw : w.waitingLanes k = n :: rest) (hc : (w.lane n).cur = some c) : w.postToken k p = w.consume n c p := by
  simp [Work.postToken, ht, hw, hc]

/-- A lane that consumes a post (R151, R152). -/
def Lane.consumed (l : Lane) (c : CurStep) (p : Poster × Byte) : Lane :=
  { l with c3 := l.c3.stop, cur := some { c with phase := .claim, resume := none, token := some p } }

theorem Work.consume_eq (w : Work) (n : LaneId) (c : CurStep) (p : Poster × Byte) :
    w.consume n c p = (w.setLane n ((w.lane n).consumed c p)).joinClaim n := by
  simp [Work.consume, Work.enterClaim, Work.setCur, Work.onLane, Lane.consumed]

end Post

/-- Settles O39: the lowest waiting lane stands first among the lanes that wait, and consumes the post. -/
theorem postGoesToTheLowestWaitingLane : Obligations.PostGoesToTheLowestWaitingLane := by
  intro w k p n c ht hc hp hk hlow
  obtain ⟨rest, hrest⟩ := Work.waitingLanes_eq_cons (Work.mem_waitingLanes.2 ⟨c, hc, hp, hk⟩) hlow
  rw [Work.postToken_waited ht hrest hc, Work.consume_eq]
  refine ⟨?_, fun m hm => ?_, rfl, rfl⟩
  · rw [Work.joinClaim_lane, Work.lane_setLane]; rfl
  · rw [Work.joinClaim_lane, Work.lane_setLane_ne _ _ hm]

/-! ### TOKEN from the host -/

section Host

variable {s : State} {token code : Byte} {k : Fin 32}

theorem exec_token_format (h : 32 ≤ token.toNat) :
    exec (.tokenPost token code) s = .next { s with work := s.work.reply 0x10 .format [] } ∧
      exec (.tokenClear token code) s = .next { s with work := s.work.reply 0x10 .format [] } ∧
      exec (.tokenRead token code) s = .next { s with work := s.work.reply 0x10 .format [] } := by
  change execTokenPost token code s = _ ∧ execTokenClear token code s = _ ∧ execTokenRead token code s = _
  simp [execTokenPost, execTokenClear, execTokenRead, tokenOf_of_ge h]

theorem exec_tokenRead (h : k.val = token.toNat) :
    exec (.tokenRead token code) s =
      .next { s with work := s.work.reply 0x10 .ok (tokenReadout s.work.tokens[k.val] (s.work.waitingLanes k)) } := by
  change execTokenRead token code s = _
  simp [execTokenRead, tokenOf_of_val_eq h]

theorem exec_tokenClear (h : k.val = token.toNat) :
    exec (.tokenClear token code) s =
      .next
        { s with
          work := ({ s.work with tokens := s.work.tokens.set k.val none } : Work).reply 0x10 .ok
            (tokenReadout s.work.tokens[k.val] (s.work.waitingLanes k)) } := by
  change execTokenClear token code s = _
  simp [execTokenClear, tokenOf_of_val_eq h]

theorem exec_tokenPost_posted {p : Poster × Byte} (h : k.val = token.toNat) (hp : s.work.tokens[k.val] = some p) :
    exec (.tokenPost token code) s =
      .next { s with work := s.work.reply 0x10 .overposted (tokenReadout (some p) (s.work.waitingLanes k)) } := by
  change execTokenPost token code s = _
  simp [execTokenPost, tokenOf_of_val_eq h, hp]

/-- An accepted post ends its event before the fields are read for the reply. -/
theorem exec_tokenPost_unposted (h : k.val = token.toNat) (hp : s.work.tokens[k.val] = none) :
    let w := (s.work.postToken k (.host, code)).finish s.env
    exec (.tokenPost token code) s =
      .next { s with work := w.reply 0x10 .ok (tokenReadout w.tokens[k.val] (w.waitingLanes k)) } := by
  change execTokenPost token code s = _
  simp [execTokenPost, tokenOf_of_val_eq h, hp]

end Host

/-! ### TOKEN from a unit -/

section Unit

variable {s : State} {n : LaneId} {token code : Byte} {k : Fin 32}

/-- A message with room in its transmit list, at a link that returns to HUNTING (R194, R196). -/
theorem Work.send_hunt {w : Work} (htx : (w.lane n).tx.length < 32) (m : UnitMessage) :
    (w.hunt n).send n m = w.setLane n { w.lane n with rx := .hunting, tx := (w.lane n).tx ++ [m] } := by
  have hhunt : w.hunt n = w.setLane n { w.lane n with queue := (w.lane n).queue, rx := .hunting } := rfl
  rw [hhunt, Work.send_hunting, if_pos htx]

theorem exec_unitToken_format (h : 32 ≤ token.toNat) :
    exec (.unitToken n token code) s = .next { s with work := (s.work.hunt n).send n (.refuse 0 0x01) } := by
  change execUnitToken n token code s = _
  simp [execUnitToken, tokenOf_of_ge h, ReplyCode.byte]

theorem exec_unitToken_posted (h : k.val = token.toNat) (hp : s.work.tokens[k.val] ≠ none) :
    exec (.unitToken n token code) s = .next { s with work := (s.work.hunt n).send n (.refuse 0 0x0A) } := by
  change execUnitToken n token code s = _
  have hsome : (s.work.hunt n).tokens[k.val].isSome = true := Option.isSome_iff_ne_none.2 hp
  simp [execUnitToken, tokenOf_of_val_eq h, hsome, ReplyCode.byte]

theorem exec_unitToken_unposted (h : k.val = token.toNat) (hp : s.work.tokens[k.val] = none) :
    exec (.unitToken n token code) s =
      .next { s with work := (((s.work.hunt n).send n (.accept 0)).postToken k (.unit n, code)).finish s.env } := by
  change execUnitToken n token code s = _
  have hnone : (s.work.hunt n).tokens[k.val] = none := hp
  simp [execUnitToken, tokenOf_of_val_eq h, hnone]

end Unit

/-- Settles O38: a token number above 31 names no token, a posted token refuses, and a post that no step waits for
stands in the table, with no trigger for the end of the event to hand out. -/
theorem tokenRequestsActOnTheTable : Obligations.TokenRequestsActOnTheTable := by
  refine fun s token code => ⟨exec_token_format, fun k hk => ⟨exec_tokenRead hk, exec_tokenClear hk,
    fun p => exec_tokenPost_posted hk, fun ht hwait hrest => ?_⟩, fun n htx => ⟨fun h => ?_, fun k hk hp => ?_,
    fun k hk ht hwait hrest => ?_⟩⟩
  · have hpost : s.work.postToken k (.host, code) =
        { s.work with tokens := s.work.tokens.set k.val (some (.host, code)) } := Work.postToken_unwaited ht hwait
    rw [exec_tokenPost_unposted hk ht, hpost, Work.finish_rested (by exact hrest.1)]
    simp only [Vector.getElem_set_self]
    rfl
  · rw [exec_unitToken_format h, Work.send_hunt htx]
  · rw [exec_unitToken_posted hk hp, Work.send_hunt htx]
  · rw [exec_unitToken_unposted hk ht, Work.send_hunt htx]
    have hwaiting := (Work.waitingLanes_setLane (l := { s.work.lane n with
      rx := .hunting, tx := (s.work.lane n).tx ++ [.accept 0] }) rfl k).trans hwait
    rw [Work.postToken_unwaited (by exact ht) hwaiting, Work.finish_rested (by exact hrest.1)]
    rfl

end Sys2Proof.Machine
end

section
/-! PROOFS, family 08_tokens_and_cross_lane_waits.md: no step waits on a posted token, over every shared operation. -/

namespace Sys2Proof.Machine

/-! ### What an operation leaves of the tokens -/

/-- No step that stands in TOKEN_WAIT has its token posted (R146), step by step. -/
theorem Work.tokensFree_iff {w : Work} :
    w.tokensFree ↔ ∀ (n : LaneId) (c : CurStep) (k : Fin 32), (w.lane n).cur = some c → c.phase = .tokenWait →
      c.step.waitToken = some k → w.tokens[k.val] = none := by
  simp only [Work.tokensFree, List.eq_nil_iff_forall_not_mem, Work.mem_waitingLanes]
  constructor
  · intro h n c k hc hp hk
    by_contra hposted
    exact h k hposted n ⟨c, hc, hp, hk⟩
  · rintro h k hposted n ⟨c, hc, hp, hk⟩
    exact hposted (h n c k hc hp hk)

theorem Work.leaveClaim_tokens (w : Work) (n : LaneId) : (w.leaveClaim n).tokens = w.tokens := by
  unfold Work.leaveClaim Work.clearMarks; dsimp only; split <;> rfl

theorem Work.takeNode_tokens (w : Work) (h : Holder) (n : Nat) (b : Fin 20) : (w.takeNode h n b).tokens = w.tokens := by
  cases hr : w.claimRow n b <;> simp [Work.takeNode, hr]

theorem Work.serveSlots_tokens (w : Work) : w.serveSlots.tokens = w.tokens := by rw [Work.serveSlots_eq]

theorem CurStep.onSide_phase (c : CurStep) (b : Bool) (f : SideState → SideState) : (c.onSide b f).phase = c.phase := by
  unfold CurStep.onSide; split <;> rfl

theorem Work.gateStep_phase (w : Work) (c : CurStep) : (w.gateStep c).phase = .gate := by
  unfold Work.gateStep; split <;> rfl

namespace Work.tokensFree

variable {w : Work}

/-! #### Composition -/

/-- An update with which no token is posted and no step enters TOKEN_WAIT. -/
theorem of_steps (h : w.tokensFree) {v : Work} (ht : ∀ k : Fin 32, w.tokens[k.val] = none → v.tokens[k.val] = none)
    (hs : ∀ (n : LaneId) (c : CurStep), (v.lane n).cur = some c → c.phase = .tokenWait → (w.lane n).cur = some c) :
    v.tokensFree :=
  Work.tokensFree_iff.2 fun n c k hc hp hk => ht k (Work.tokensFree_iff.1 h n c k (hs n c hc hp) hp hk)

/-- An update that leaves the lanes and the tokens. -/
theorem of_same (h : w.tokensFree) {v : Work} (hl : v.lanes = w.lanes) (ht : v.tokens = w.tokens) :
    v.tokensFree :=
  h.of_steps (fun k hk => by rw [ht]; exact hk) fun n c hc _ => by rwa [Work.lane, hl] at hc

theorem foldl {α : Type} {f : Work → α → Work} (h : w.tokensFree)
    (hf : ∀ (v : Work) (x : α), v.tokensFree → (f v x).tokensFree) (xs : List α) :
    (xs.foldl f w).tokensFree :=
  List.foldlRecOn xs f (motive := Work.tokensFree) h fun v hv x _ => hf v x hv

theorem foldlPair {α : Type} {f : Work × Bool → α → Work × Bool} {p : Work × Bool} (h : p.1.tokensFree)
    (hf : ∀ (q : Work × Bool) (x : α), q.1.tokensFree → (f q x).1.tokensFree) (xs : List α) :
    (xs.foldl f p).1.tokensFree :=
  List.foldlRecOn xs f (motive := fun q => Work.tokensFree q.1) h fun q hq x _ => hf q x hq

/-! #### Lanes -/

theorem setLane (h : w.tokensFree) (n : LaneId) (l : Lane)
    (hl : ∀ c, l.cur = some c → c.phase = .tokenWait → (w.lane n).cur = some c) : (w.setLane n l).tokensFree := by
  refine h.of_steps (fun _ hk => hk) fun m c hc hp => ?_
  by_cases hm : m = n
  · subst hm; rw [Work.lane_setLane] at hc; exact hl c hc hp
  · rwa [Work.lane_setLane_ne _ _ hm] at hc

theorem onLane (h : w.tokensFree) (n : LaneId) (f : Lane → Lane) (hf : (f (w.lane n)).cur = (w.lane n).cur) :
    (w.onLane n f).tokensFree := h.setLane n _ fun _ hc _ => hf ▸ hc

/-- A step is written that does not stand in TOKEN_WAIT. -/
theorem setCur (h : w.tokensFree) (n : LaneId) {c : CurStep} (hp : c.phase ≠ .tokenWait) :
    (w.setCur n (some c)).tokensFree :=
  h.setLane n _ fun _ hx hxp => absurd (Option.some.inj hx ▸ hxp) hp

theorem clearCur (h : w.tokensFree) (n : LaneId) : (w.setCur n none).tokensFree := h.setLane n _ fun _ hc => nomatch hc

theorem drive (h : w.tokensFree) (e : Env) (n : LaneId) (src gate : Bool) : (w.drive e n src gate).tokensFree := by
  unfold Work.drive; split
  · exact h.onLane n _ rfl
  · exact h

theorem driveAll (h : w.tokensFree) (e : Env) (ns : List LaneId) (src gate : Bool) :
    (w.driveAll e ns src gate).tokensFree := h.foldl (fun _ n hv => hv.drive e n src gate) ns

theorem startEach (h : w.tokensFree) (ns : List LaneId) {f : Lane → Lane} (hf : ∀ l, (f l).cur = l.cur) :
    (w.startEach ns f).tokensFree := h.foldl (fun _ n hv => hv.onLane n f (hf _)) ns

theorem startWatch (h : w.tokensFree) (e : Env) (n : LaneId) (r : StepRecord) : (w.startWatch e n r).tokensFree :=
  h.onLane n _ rfl

theorem stopAll (h : w.tokensFree) (n : LaneId) : (w.stopAll n).tokensFree := h.onLane n _ rfl

theorem stopStep (h : w.tokensFree) (n : LaneId) (r : StepRecord) : (w.stopStep n r).tokensFree := by
  unfold Work.stopStep; split
  · exact (h.stopAll n).onLane _ _ rfl
  · exact h.stopAll n

theorem endPair (h : w.tokensFree) (n : LaneId) (r : StepRecord) : (w.endPair n r).tokensFree := by
  unfold Work.endPair; split
  · exact h.onLane _ _ (by split <;> rfl)
  · exact h

theorem unfreeze (h : w.tokensFree) (n : LaneId) (r : StepRecord) : (w.unfreeze n r).tokensFree := by
  unfold Work.unfreeze; split
  · exact h.onLane _ _ rfl
  · exact h

theorem hunt (h : w.tokensFree) (n : LaneId) : (w.hunt n).tokensFree := h.onLane n _ rfl

/-! #### Causes and messages -/

theorem raise (h : w.tokensFree) (c : Cause) : (w.raise c).tokensFree := h.of_same rfl rfl

theorem reply (h : w.tokensFree) (e : Byte) (c : ReplyCode) (b : List Byte) : (w.reply e c b).tokensFree :=
  h.of_same rfl rfl

theorem send (h : w.tokensFree) (n : LaneId) (m : UnitMessage) : (w.send n m).tokensFree := by
  unfold Work.send; split
  · exact h.onLane n _ rfl
  · exact h.raise _

theorem sendAll (h : w.tokensFree) (ns : List LaneId) (m : UnitMessage) : (w.sendAll ns m).tokensFree :=
  h.foldl (fun _ n hv => hv.send n m) ns

theorem discardFrame (h : w.tokensFree) (n : LaneId) : (w.discardFrame n).tokensFree := (h.hunt n).raise _

theorem noteRemoval (h : w.tokensFree) (e : Env) (n : LaneId) (a b : Nat) : (w.noteRemoval e n a b).tokensFree := by
  obtain ⟨k, hk⟩ := w.noteRemoval_notices e n a b
  rw [hk]; exact h.of_same rfl rfl

theorem raiseVerdict (h : w.tokensFree) (g : LaneConfig) (n : LaneId) (v : Verdict) :
    (w.raiseVerdict g n v).tokensFree := by
  obtain ⟨k, hk⟩ := w.raiseVerdict_notices g n v
  rw [hk]; exact h.of_same rfl rfl

theorem enterResult (h : w.tokensFree) (n : LaneId) (r : ResultRecord) : (w.enterResult n r).tokensFree := by
  obtain ⟨k, hk⟩ := w.enterResult_notices n r
  rw [hk]; exact h.of_same rfl rfl

/-! #### Nodes and frames -/

theorem releases (h : w.tokensFree) {v : Work} (hv : w.Releases v) : v.tokensFree :=
  h.of_steps (fun k hk => by rwa [hv.tokens]) fun n c hc _ => by rwa [hv.lane] at hc

theorem leaveClaim (h : w.tokensFree) (n : LaneId) : (w.leaveClaim n).tokensFree :=
  h.of_steps (fun k hk => by rwa [Work.leaveClaim_tokens]) fun m c hc _ => by rwa [Work.leaveClaim_lane] at hc

theorem takeNode (h : w.tokensFree) (d : Holder) (n : Nat) (b : Fin 20) : (w.takeNode d n b).tokensFree :=
  h.of_same (w.takeNode_lanes d n b) (w.takeNode_tokens d n b)

theorem serveSlots (h : w.tokensFree) : w.serveSlots.tokensFree := h.of_same w.serveSlots_lanes w.serveSlots_tokens

theorem takeHold (h : w.tokensFree) (n : LaneId) : (w.takeHold n).tokensFree := by
  unfold Work.takeHold; split
  · exact h
  · exact h.of_same rfl rfl

theorem releaseHold (h : w.tokensFree) (n : LaneId) : (w.releaseHold n).tokensFree := by
  unfold Work.releaseHold; split
  · exact h.of_same rfl rfl
  · exact h

theorem requestOpenAll (h : w.tokensFree) : w.requestOpenAll.tokensFree := by
  unfold Work.requestOpenAll; split
  · exact h.of_same rfl rfl
  · exact h

/-! #### Tokens and waits -/

theorem enterClaim (h : w.tokensFree) (n : LaneId) (c : CurStep) : (w.enterClaim n c).tokensFree :=
  (h.setCur n (c := { c with phase := .claim, resume := none }) (by nofun)).of_same rfl rfl

theorem consume (h : w.tokensFree) (n : LaneId) (c : CurStep) (p : Poster × Byte) : (w.consume n c p).tokensFree :=
  (h.onLane n (fun l => { l with c3 := l.c3.stop }) rfl).enterClaim n _

/-- A token loses its post. -/
theorem unpost (h : w.tokensFree) (k : Fin 32) :
    ({ w with tokens := w.tokens.set k.val none } : Work).tokensFree := by
  refine h.of_steps (fun j hj => ?_) fun _ _ hc _ => hc
  simp only [Vector.getElem_set, hj, ite_self]

/-- A token that no step waits on is posted (R147). -/
theorem post (h : w.tokensFree) {k : Fin 32} (hk : w.waitingLanes k = []) (p : Poster × Byte) :
    ({ w with tokens := w.tokens.set k.val (some p) } : Work).tokensFree := by
  intro j hj
  by_cases hjk : j = k
  · subst hjk; exact hk
  · exact h j (by rwa [Vector.getElem_set_ne _ _ fun he => hjk (Fin.ext he.symm)] at hj)

theorem postToken (h : w.tokensFree) (k : Fin 32) (p : Poster × Byte) : (w.postToken k p).tokensFree := by
  unfold Work.postToken; split
  · exact h
  · split
    · exact h.consume _ _ p
    · exact h
  · next hwait => exact h.post hwait p

/-- A step waits only on an unposted token: it consumes a post that stands (R151). -/
theorem enterTokenWait (h : w.tokensFree) (e : Env) (n : LaneId) {c : CurStep} {k : Fin 32}
    (hk : c.step.waitToken = some k) : (w.enterTokenWait e n c k).tokensFree := by
  unfold Work.enterTokenWait; split
  · exact (h.unpost k).consume n c _
  · next hnone =>
    refine startWatch (Work.tokensFree_iff.2 fun m x j hx hp hj => ?_) e n _
    by_cases hm : m = n
    · subst hm
      rw [Work.lane_setCur] at hx
      obtain rfl := Option.some.inj hx
      obtain rfl := Option.some.inj (hk.symm.trans hj)
      exact hnone
    · rw [Work.lane_setCur_ne _ _ hm] at hx
      exact Work.tokensFree_iff.1 h m x j hx hp hj

theorem enterWaits (h : w.tokensFree) (e : Env) (n : LaneId) (c : CurStep) : (w.enterWaits e n c).tokensFree := by
  unfold Work.enterWaits; split
  · next hk _ => exact h.enterTokenWait e n hk
  · exact h.enterClaim n c

/-- A lane whose step stays as its run states change. -/
theorem rerun (h : w.tokensFree) (n : LaneId) (r : RunState) (q : Option RunState) :
    (w.setLane n { w.lane n with run := r, remembered := q }).tokensFree := h.setLane n _ fun _ hc _ => hc

theorem tryFollow (h : w.tokensFree) (e : Env) (f : LaneId) : (w.tryFollow e f).tokensFree := by
  have hf := h.rerun f .following (some (w.lane f).run)
  unfold Work.tryFollow; dsimp only; split
  · split
    · split
      · split
        · exact hf.enterWaits e _ _
        · exact hf
      · exact hf
    · exact h
  · exact h

theorem enterFuseWait (h : w.tokensFree) (e : Env) (n : LaneId) (c : CurStep) : (w.enterFuseWait e n c).tokensFree :=
  ((h.setCur n (by nofun)).onLane (followerOf n) (fun l => { l with frozen := true }) rfl).tryFollow e _

/-! #### Delivery -/

theorem delivery (h : w.tokensFree) (e : Env) (n : LaneId) (c : CurStep) (r : ResultRecord) :
    (w.delivery e n c r).tokensFree := by
  have hsent : (if c.step.origin = .unit then (w.enterResult n r).send n (.done c.step.tag r.verdict)
      else w.enterResult n r).tokensFree := by
    split
    · exact (h.enterResult n r).send n _
    · exact h.enterResult n r
  refine endPair (onLane ?_ n _ (Lane.afterDelivery_cur _ _)) n _
  exact ((hsent.clearCur n).noteRemoval e n _ _).raiseVerdict _ n _

theorem offer (h : w.tokensFree) (e : Env) (n : LaneId) : (w.offer e n).tokensFree := by
  unfold Work.offer; split
  · split
    · split
      · exact (h.delivery e n _ _).tryFollow e n
      · exact h
    · exact h
  · exact h

theorem offers (h : w.tokensFree) (e : Env) (ns : List LaneId) : (ns.foldl (fun w n => w.offer e n) w).tokensFree :=
  h.foldl (fun _ n hv => hv.offer e n) ns

theorem enterDeliver (h : w.tokensFree) (e : Env) (n : LaneId) (c : CurStep) (r : ResultRecord) :
    (w.enterDeliver e n c r).tokensFree := (h.setCur n (by nofun)).offer e n

theorem complete (h : w.tokensFree) (e : Env) (n : LaneId) (c : CurStep) (v : Verdict) :
    (w.complete e n c v).tokensFree :=
  ((h.driveAll e _ _ _).releases (Work.releaseStep_releases _ e n c)).enterDeliver e n c _

/-! #### From settle to the gate's end -/

theorem startSettle (h : w.tokensFree) (e : Env) (n : LaneId) (c : CurStep) : (w.startSettle e n c).1.tokensFree := by
  have hset := h.setCur n (c := { c with phase := .settle }) (by nofun)
  unfold Work.startSettle; dsimp only; split
  · split <;> exact hset.onLane n (fun l => { l with c0 := _ }) rfl
  · exact hset.onLane n (fun l => { l with c0 := _ }) rfl

theorem enterReadyWait (h : w.tokensFree) (e : Env) (n : LaneId) (c : CurStep) : (w.enterReadyWait e n c).tokensFree :=
  (h.setCur n (by nofun)).startWatch e n _

/-- What follows the start of a settle continues from the state that the start leaves. -/
theorem afterSettle (h : w.tokensFree) (e : Env) (n : LaneId) (c : CurStep) (f : Work → Nat → Bool → Work)
    (hf : ∀ (v : Work) (k : Nat) (b : Bool), v.tokensFree → (f v k b).tokensFree) :
    (match w.startSettle e n c with
      | (w, some (captured, capped)) => f w captured capped
      | (w, none) => w).tokensFree := by
  have hs := h.startSettle e n c
  split
  · next heq => rw [heq] at hs; exact hf _ _ _ hs
  · next heq => rw [heq] at hs; exact hs

theorem repeatStep (h : w.tokensFree) (e : Env) (n : LaneId) (c : CurStep) : (w.repeatStep e n c).tokensFree :=
  ((h.driveAll e _ _ _).sendAll _ _).afterSettle e n _ (fun v k b => v.enterReadyWait e n (c.nextAttempt.settled k b))
    fun _ _ _ hv => hv.enterReadyWait e n _

theorem evaluate (h : w.tokensFree) (e : Env) (n : LaneId) (c : CurStep) : (w.evaluate e n c).tokensFree := by
  unfold Work.evaluate; split
  · exact h
  · dsimp only; split
    · exact h.complete e n _ _
    · exact h.complete e n _ _
    · split
      · exact h.complete e n _ _
      · exact h.repeatStep e n _

theorem endGate (h : w.tokensFree) (e : Env) (n : LaneId) (c : CurStep) : (w.endGate e n c).tokensFree := by
  have hended := ((h.driveAll e (stepLanes n c.step) true false).releaseHold n).setCur n (c := c.gateEnded) (by nofun)
  unfold Work.endGate; dsimp only; split
  · exact hended.evaluate e n _
  · exact hended.startWatch e n _

theorem postGate (h : w.tokensFree) (n : LaneId) (r : StepRecord) : (w.postGate n r).tokensFree := by
  unfold Work.postGate; split
  · exact h.postToken _ _
  · exact h

theorem beginGate (h : w.tokensFree) (e : Env) (n : LaneId) (c : CurStep) : (w.beginGate e n c).tokensFree := by
  have hopen : (w.openGate e n c).tokensFree := (h.driveAll e _ _ _).startEach _ fun _ => by rfl
  have hpost := (hopen.setCur n (c := w.gateStep c) (by rw [Work.gateStep_phase]; nofun)).postGate n c.step
  unfold Work.beginGate; dsimp only; split
  · exact hpost.endGate e n _
  · exact hpost

theorem endSourceDelay (h : w.tokensFree) (e : Env) (n : LaneId) (c : CurStep) :
    (w.endSourceDelay e n c).tokensFree := by
  unfold Work.endSourceDelay; dsimp only; split
  · split
    · exact (h.takeHold n).beginGate e n c
    · exact h.takeHold n
  · exact h.beginGate e n c

theorem beginSource (h : w.tokensFree) (e : Env) (n : LaneId) (c : CurStep) : (w.beginSource e n c).tokensFree := by
  have hopen : (w.openSource e n c).tokensFree := ((h.setCur n (by nofun)).driveAll e _ _ _).startEach _ fun _ => by rfl
  unfold Work.beginSource; dsimp only; split
  · exact hopen.endSourceDelay e n _
  · exact hopen

theorem endSettle (h : w.tokensFree) (e : Env) (n : LaneId) (c : CurStep) (k : Nat) (b : Bool) :
    (w.endSettle e n c k b).tokensFree := by
  unfold Work.endSettle; dsimp only; split
  · exact h.beginSource e n _
  · exact h.enterReadyWait e n _

theorem checkSwitch (h : w.tokensFree) (e : Env) (n : LaneId) : (w.checkSwitch e n).tokensFree := by
  unfold Work.checkSwitch; split
  · next c _ =>
    split
    · exact h.afterSettle e n c (fun v k b => v.endSettle e n { c with phase := .settle } k b)
        fun _ _ _ hv => hv.endSettle e n _ _ _
    · exact h
  · exact h

/-! #### The end of an event -/

theorem takeClaim (h : w.tokensFree) (e : Env) (a : LaneId) (c : CurStep) : (w.takeClaim e a c).1.tokensFree := by
  have hunmarked : ({ w with wake := false, freed := false } : Work).tokensFree := h.of_same rfl rfl
  have hgrant : (w.grantNodes a c).tokensFree :=
    ((hunmarked.foldl (fun _ p hv => hv.takeNode (.lane a) p.1 p.2) c.nodes).leaveClaim a).of_same rfl rfl
  have hserved : (if (w.grantNodes a c).freed then (w.grantNodes a c).serveSlots else w.grantNodes a c).tokensFree := by
    split
    · exact hgrant.serveSlots
    · exact hgrant
  have hmarked : ({ (if (w.grantNodes a c).freed then (w.grantNodes a c).serveSlots else w.grantNodes a c)
      with wake := false, freed := false } : Work).tokensFree := hserved.of_same rfl rfl
  exact ((hmarked.setCur a (by nofun)).sendAll _ _).checkSwitch e a

theorem placeMarks (h : w.tokensFree) (a : LaneId) (ns : List Nat) : (w.placeMarks a ns).1.tokensFree := by
  refine foldlPair h (fun q n hq => ?_) ns
  dsimp only; split
  · exact hq.of_same rfl rfl
  · split
    · exact hq
    · split
      · exact hq.of_same rfl rfl
      · exact hq

theorem tryClaim (h : w.tokensFree) (e : Env) (a : LaneId) : (w.tryClaim e a).1.tokensFree := by
  unfold Work.tryClaim; split
  · split
    · dsimp only; split
      · exact h.placeMarks a _
      · split
        · exact h
        · exact h.takeClaim e a _
    · exact h
  · exact h

theorem arbitrate (h : w.tokensFree) (e : Env) (k : Nat) : (w.arbitrate e k).tokensFree := by
  induction k generalizing w with
  | zero => exact h
  | succ k ih =>
    have hp : (w.pass e).1.tokensFree :=
      foldlPair (p := (w, false)) h (fun _ a hq => hq.tryClaim e a) (lanesAfter w.nodes.lastWinner)
    unfold Work.arbitrate; split
    · next heq => rw [heq] at hp; exact ih hp
    · next heq => rw [heq] at hp; exact hp

theorem finish (h : w.tokensFree) (e : Env) : (w.finish e).tokensFree := by
  have hmarks : ({ w with wake := false, freed := false } : Work).tokensFree := h.of_same rfl rfl
  have hdone : (if w.freed then ({ w with wake := false, freed := false } : Work).serveSlots.arbitrate e passBound
      else (({ w with wake := false, freed := false } : Work).arbitrate e passBound).serveSlots).tokensFree := by
    split
    · exact hmarks.serveSlots.arbitrate e _
    · exact (hmarks.arbitrate e _).serveSlots
  unfold Work.finish; split
  · exact hdone.of_same rfl rfl
  · exact h

theorem reportQuiet (h : w.tokensFree) (e : Env) : (w.reportQuiet e).tokensFree := by
  unfold Work.reportQuiet; split
  · refine h.foldl (fun v n hv => ?_) _
    split
    · split
      · exact hv.beginGate e n _
      · exact hv
    · exact hv
  · exact h

theorem finishQuiet (h : w.tokensFree) (e : Env) : (w.finishQuiet e).tokensFree := ((h.finish e).reportQuiet e).finish e

/-! #### Aborts -/

theorem abortStep (h : w.tokensFree) (e : Env) (n : LaneId) (c : CurStep) : (w.abortStep e n c).tokensFree :=
  have hcut := (((h.sendAll _ _).driveAll e _ _ _).stopStep n _).releaseHold n
  (hcut.releases (Work.releaseStep_releases _ e n c)).setCur n (by nofun)

theorem keepStep (h : w.tokensFree) (n : LaneId) (c : CurStep) (p : ResumePoint) : (w.keepStep n c p).tokensFree :=
  ((h.stopAll n).setCur n (by nofun)).leaveClaim n

theorem abortLane (h : w.tokensFree) (e : Env) (n : LaneId) : (w.abortLane e n).tokensFree := by
  unfold Work.abortLane; dsimp only; split
  · split
    · exact h
    · exact h.onLane n _ rfl
  · next c _ =>
    split
    · exact (h.abortStep e n c).onLane n _ rfl
    · split
      · exact h.onLane n _ rfl
      · exact ((h.keepStep n c _).unfreeze n _).onLane n _ rfl

theorem safetyAbort (h : w.tokensFree) (e : Env) (c : Cause) : (w.safetyAbort e c).tokensFree :=
  (((h.raise c).foldl (fun _ n hv => hv.abortLane e n) allLanes).requestOpenAll).offers e _

theorem chainFault (h : w.tokensFree) (e : Env) : (w.chainFault e).tokensFree := by
  have hasked : ({ w with chain := { w.chain with state := .fault } } : Work).requestUnchecked.tokensFree :=
    h.of_same rfl rfl
  exact hasked.safetyAbort e .chainFault

/-! #### Requests and messages at a lane -/

theorem append (h : w.tokensFree) (n : LaneId) (r : StepRecord) : (w.append n r).tokensFree := h.onLane n _ rfl

theorem admitHead (h : w.tokensFree) (e : Env) (n : LaneId) : (w.admitHead e n).tokensFree := by
  unfold Work.admitHead; split
  · exact h
  · next rest _ =>
    have hpopped := h.onLane n (fun l => { l with queue := rest }) rfl
    dsimp only; split
    · unfold Work.startStep; split
      · exact hpopped.enterFuseWait e n _
      · exact hpopped.enterWaits e n _
    · exact hpopped.enterDeliver e n _ _

theorem resumeStep (h : w.tokensFree) (e : Env) (n : LaneId) (c : CurStep) : (w.resumeStep e n c).tokensFree := by
  unfold Work.resumeStep; split
  · exact h.enterFuseWait e n c
  · exact h.enterWaits e n c
  · exact h.enterClaim n c
  · exact h

/-- A lane that GO sets RUNNING. -/
theorem goRunning (h : w.tokensFree) (e : Env) (n : LaneId) :
    (match (w.lane n).cur with
      | some c => (w.setLane n { w.lane n with run := .running }).resumeStep e n c
      | none => (w.setLane n { w.lane n with run := .running }).tryFollow e n).tokensFree := by
  have hrun := h.rerun n .running (w.lane n).remembered
  split
  · exact hrun.resumeStep e n _
  · exact hrun.tryFollow e n

theorem goLane (h : w.tokensFree) (e : Env) (n : LaneId) : (w.goLane e n).tokensFree := by
  unfold Work.goLane; dsimp only; split
  case h_5 | h_6 => exact h
  case h_7 =>
    split
    · exact h.rerun n (w.lane n).run _
    · exact h
  all_goals exact h.goRunning e n

theorem pauseLane (h : w.tokensFree) (n : LaneId) : (w.pauseLane n).tokensFree := by
  unfold Work.pauseLane; dsimp only; split
  · split
    · exact h.onLane n _ rfl
    · next c _ =>
      split
      · exact ((h.keepStep n c _).unfreeze n _).onLane n _ rfl
      · exact (h.keepStep n c _).onLane n _ rfl
      · exact (h.keepStep n c _).onLane n _ rfl
      · exact h.onLane n _ rfl
      · exact h.onLane n _ rfl
      · exact h.rerun n _ (w.lane n).remembered
  · split
    · exact h.rerun n (w.lane n).run _
    · exact h
  · exact h

theorem cancelLane (h : w.tokensFree) (e : Env) (n : LaneId) : (w.cancelLane e n).1.tokensFree := by
  have hempty := h.onLane n (fun l => { l with queue := [] }) rfl
  unfold Work.cancelLane; dsimp only; split
  · exact hempty.noteRemoval e n _ _
  · next c _ =>
    split
    · exact hempty.noteRemoval e n _ _
    · split
      · exact ((hempty.noteRemoval e n _ _).abortStep e n c).offer e n
      · have hleft := (hempty.stopAll n).leaveClaim n
        have hwoken : (if c.phase = .claim ∨ c.resume = some .claim then
            ({ ((w.onLane n fun l => { l with queue := [] }).stopAll n).leaveClaim n with wake := true } : Work)
            else ((w.onLane n fun l => { l with queue := [] }).stopAll n).leaveClaim n).tokensFree := by
          split
          · exact hleft.of_same rfl rfl
          · exact hleft
        exact (((hwoken.clearCur n).noteRemoval e n _ _).endPair n _).tryFollow e n

theorem takeReady (h : w.tokensFree) (e : Env) (l : LaneId) (t : BitVec 16) (a : Byte) :
    (w.takeReady e l t a).tokensFree := by
  unfold Work.takeReady; dsimp only; split
  · exact h.raise _
  · next c _ =>
    split
    · next hm =>
      obtain ⟨-, -, hphase⟩ := hm
      have hwritten := h.setCur (w.owner l).1 (c := c.onSide (w.owner l).2 fun x => { x with ready := true }) (by
        rw [CurStep.onSide_phase]; rcases hphase with hp | hp | hp <;> rw [hp] <;> nofun)
      split
      · exact (hwritten.onLane _ (fun l => { l with c3 := l.c3.stop }) rfl).beginSource e _ _
      · exact hwritten
    · exact h.raise _

theorem takeResult (h : w.tokensFree) (e : Env) (l : LaneId) (t : BitVec 16) (a : Byte) (r : Reading) :
    (w.takeResult e l t a r).tokensFree := by
  unfold Work.takeResult; dsimp only; split
  · exact h.raise _
  · next c _ =>
    split
    · next hm =>
      obtain ⟨-, hphase, -⟩ := hm
      exact h.setCur _ (by rw [CurStep.onSide_phase]; rcases hphase with hp | hp <;> rw [hp] <;> nofun)
    · split
      · next hm =>
        obtain ⟨-, hphase, -⟩ := hm
        have hwritten := h.setCur (w.owner l).1 (c := c.onSide (w.owner l).2 fun x => { x with reading := some r }) (by
          rw [CurStep.onSide_phase, hphase]; nofun)
        split
        · exact (hwritten.onLane _ (fun l => { l with c3 := l.c3.stop }) rfl).evaluate e _ _
        · exact hwritten
      · exact h.raise _

end Work.tokensFree

end Sys2Proof.Machine
end

section
/-! PROOFS, family 08_tokens_and_cross_lane_waits.md: no step waits on a posted token, over every command and idle
clock; O10. -/

namespace Sys2Proof.Machine

section Commands

variable {s t : State}

theorem tokensFree_of_onWork {f : Work → Work} (h : onWork s f = .next t) (hf : (f s.work).tokensFree) :
    t.work.tokensFree := by
  obtain rfl := Host.Outcome.next.inj h
  exact hf

/-- The same for a command that has written the inputs first. -/
theorem tokensFree_of_inputs {inputs : Inputs} {f : Work → Work} (h : onWork { s with inputs } f = .next t)
    (hf : (f s.work).tokensFree) : t.work.tokensFree := by
  obtain rfl := Host.Outcome.next.inj h
  exact hf

/-! ### Configuration and readouts -/

theorem execConfigLane_tokensFree {lane en fa ta : Byte} {gain : BitVec 16} {offset : BitVec 24} {linger : BitVec 16}
    {low mode : Byte} (h : execConfigLane lane en fa ta gain offset linger low mode s = .next t)
    (hs : s.work.tokensFree) : t.work.tokensFree := by
  unfold execConfigLane at h
  dsimp only at h
  split at h
  · next n _ _ _ =>
    split at h
    · obtain rfl := Host.Outcome.next.inj h
      refine Work.tokensFree.reply ?_ _ _ _
      split
      · exact hs.setLane n _ fun _ hc _ => hc
      · exact hs
    · exact tokensFree_of_onWork h (hs.reply _ _ _)
  · exact tokensFree_of_onWork h (hs.reply _ _ _)

theorem execLoadRegion_tokensFree {a : Byte} {b c d : BitVec 16} (h : execLoadRegion a b c d s = .next t)
    (hs : s.work.tokensFree) : t.work.tokensFree := by
  unfold execLoadRegion at h
  split at h
  · exact tokensFree_of_onWork h (hs.reply _ _ _)
  · split at h <;> obtain rfl := Host.Outcome.next.inj h <;> exact hs.reply _ _ _

theorem execFixtureConfig_tokensFree {a b c : BitVec 16} (h : execFixtureConfig a b c s = .next t)
    (hs : s.work.tokensFree) : t.work.tokensFree := by
  unfold execFixtureConfig at h
  split at h
  · exact tokensFree_of_onWork h (hs.reply _ _ _)
  · split at h <;> obtain rfl := Host.Outcome.next.inj h <;> exact hs.reply _ _ _

theorem execSetMask_tokensFree {a : Byte} (h : execSetMask a s = .next t) (hs : s.work.tokensFree) :
    t.work.tokensFree := by
  unfold execSetMask at h
  split at h <;> obtain rfl := Host.Outcome.next.inj h <;> exact hs.reply _ _ _

theorem execReadLane_tokensFree {a : Byte} (h : execReadLane a s = .next t) (hs : s.work.tokensFree) :
    t.work.tokensFree := by
  refine tokensFree_of_onWork h ?_
  split <;> exact hs.reply _ _ _

theorem execReadRegion_tokensFree {a : Byte} (h : execReadRegion a s = .next t) (hs : s.work.tokensFree) :
    t.work.tokensFree := by
  refine tokensFree_of_onWork h ?_
  split <;> exact hs.reply _ _ _

theorem execReadNode_tokensFree {a : BitVec 16} (h : execReadNode a s = .next t) (hs : s.work.tokensFree) :
    t.work.tokensFree := by
  refine tokensFree_of_onWork h ?_
  split <;> exact hs.reply _ _ _

/-! ### Records, results, notices and tokens -/

theorem execPostStep_tokensFree {a : Byte} {r : List Byte} (h : execPostStep a r s = .next t)
    (hs : s.work.tokensFree) : t.work.tokensFree := by
  refine tokensFree_of_onWork h ?_
  split
  · split
    · exact (hs.append _ _).reply _ _ _
    · exact hs.reply _ _ _
  · exact hs.reply _ _ _

theorem execTakeResults_tokensFree {a : Byte} (h : execTakeResults a s = .next t) (hs : s.work.tokensFree) :
    t.work.tokensFree := by
  have hleft : ({ s.work with results := s.work.results.drop a.toNat } : Work).tokensFree := hs.of_same rfl rfl
  refine tokensFree_of_onWork h ?_
  split
  · exact hs.reply _ _ _
  · refine Work.tokensFree.reply (Work.tokensFree.finish ?_ _) _ _ _
    split
    · exact hleft
    · exact hleft.offers _ _

theorem execAckNotice_tokensFree (h : execAckNotice s = .next t) (hs : s.work.tokensFree) : t.work.tokensFree := by
  refine tokensFree_of_onWork h ?_
  split
  · exact hs.of_same rfl rfl
  · exact hs.reply _ _ _

theorem execTokenPost_tokensFree {a b : Byte} (h : execTokenPost a b s = .next t) (hs : s.work.tokensFree) :
    t.work.tokensFree := by
  refine tokensFree_of_onWork h ?_
  split
  · exact hs.reply _ _ _
  · split
    · exact hs.reply _ _ _
    · exact ((hs.postToken _ _).finish _).reply _ _ _

theorem execTokenClear_tokensFree {a b : Byte} (h : execTokenClear a b s = .next t) (hs : s.work.tokensFree) :
    t.work.tokensFree := by
  refine tokensFree_of_onWork h ?_
  split
  · exact hs.reply _ _ _
  · exact (hs.unpost _).reply _ _ _

theorem execTokenRead_tokensFree {a b : Byte} (h : execTokenRead a b s = .next t) (hs : s.work.tokensFree) :
    t.work.tokensFree := by
  refine tokensFree_of_onWork h ?_
  split <;> exact hs.reply _ _ _

/-! ### Nodes -/

theorem Work.tokensFree.holdNode {w : Work} (h : w.tokensFree) (n : Nat) (b : Fin 20) :
    (w.holdNode n b).1.tokensFree := by
  unfold Work.holdNode; dsimp only; split
  iterate 3 exact h
  · split
    · exact h
    · exact h.takeNode _ _ _

theorem execSetNode_tokensFree {a : BitVec 16} {b : Byte} (h : execSetNode a b s = .next t) (hs : s.work.tokensFree) :
    t.work.tokensFree := by
  refine tokensFree_of_onWork h ?_
  split
  · exact hs.reply _ _ _
  · split
    · exact hs.reply _ _ _
    · split
      · exact hs.reply _ _ _
      · exact ((hs.holdNode _ _).finish _).reply _ _ _

theorem execFreeNode_tokensFree {a : BitVec 16} (h : execFreeNode a s = .next t) (hs : s.work.tokensFree) :
    t.work.tokensFree := by
  refine tokensFree_of_onWork h ?_
  split
  · exact hs.reply _ _ _
  · split
    · exact hs.reply _ _ _
    · exact hs.reply _ _ _
    · exact ((hs.releases (Work.releaseNode_releases _ _ _)).finish _).reply _ _ _

theorem execLingerExpiry_tokensFree (h : execLingerExpiry s = .next t) (hs : s.work.tokensFree) :
    t.work.tokensFree := by
  refine tokensFree_of_onWork h ?_
  split
  · exact Work.tokensFree.serveSlots (hs.of_same (by rfl) (by rfl))
  · exact hs

/-! ### The relay chain engine -/

theorem execChainReset_tokensFree (h : execChainReset s = .next t) (hs : s.work.tokensFree) : t.work.tokensFree := by
  refine tokensFree_of_onWork h ?_
  split
  · exact hs.reply _ _ _
  · exact hs.of_same rfl rfl
  · unfold Work.requestReset; split <;> exact hs.of_same rfl rfl

theorem execFrameShiftBegin_tokensFree (h : execFrameShiftBegin s = .next t) (hs : s.work.tokensFree) :
    t.work.tokensFree := by
  refine tokensFree_of_onWork h ?_
  split
  · split
    · exact hs.of_same rfl rfl
    · exact hs
  · exact hs

theorem Work.tokensFree.endFrameShift {w : Work} (h : w.tokensFree) (e : Env) (f : Frame) :
    (w.endFrameShift e f).tokensFree := by
  simp only [Work.endFrameShift]; rw [Work.frameShifted_eq]
  exact h.of_same rfl rfl

theorem execFrameShiftEnd_tokensFree {a : BitVec 32} (h : execFrameShiftEnd a s = .next t) (hs : s.work.tokensFree) :
    t.work.tokensFree := by
  refine tokensFree_of_onWork h ?_
  split
  · split
    · refine Work.tokensFree.finish ?_ _
      split
      · exact (hs.endFrameShift _ _).chainFault _
      · exact hs.endFrameShift _ _
    · exact hs
  · exact hs

theorem execShiftAbandonedEnd_tokensFree (h : execShiftAbandonedEnd s = .next t) (hs : s.work.tokensFree) :
    t.work.tokensFree := by
  refine tokensFree_of_onWork h ?_
  split
  · split
    · exact Work.tokensFree.finishQuiet (hs.of_same (by rfl) (by rfl)) _
    · exact hs
  · exact hs

theorem execOpenAllShiftBegin_tokensFree (h : execOpenAllShiftBegin s = .next t) (hs : s.work.tokensFree) :
    t.work.tokensFree := by
  refine tokensFree_of_onWork h ?_
  split
  · split
    · exact hs.of_same rfl rfl
    · exact hs
  · exact hs

theorem Work.tokensFree.answerReset {w : Work} (h : w.tokensFree) (c : ReplyCode) : (w.answerReset c).tokensFree := by
  unfold Work.answerReset; split
  · exact h.reply _ _ _
  · exact h

theorem Work.tokensFree.judgeOpenAll {w : Work} (h : w.tokensFree) (e : Env) (k : OpenAllKind) (good : Bool) :
    (w.judgeOpenAll e k good).tokensFree := by
  have hset : ∀ c, ({ w with chain := { w.chain with state := c } } : Work).tokensFree := fun _ => h.of_same rfl rfl
  unfold Work.judgeOpenAll; split
  · exact h
  · split
    · exact h.chainFault e
    · exact h
  all_goals
    split
    · exact (hset _).answerReset _
    · exact ((hset _).safetyAbort e _).answerReset _

theorem execOpenAllShiftEnd_tokensFree {a : BitVec 32} (h : execOpenAllShiftEnd a s = .next t)
    (hs : s.work.tokensFree) : t.work.tokensFree := by
  have hended : (s.work.endOpenAllShift s.env).tokensFree := hs.of_same rfl rfl
  refine tokensFree_of_onWork h ?_
  split
  · split
    · exact (hended.judgeOpenAll _ _ _).finish _
    · exact hs
  · exact hs

theorem execCloseComplete_tokensFree (h : execCloseComplete s = .next t) (hs : s.work.tokensFree) :
    t.work.tokensFree := by
  refine tokensFree_of_onWork h ?_
  split
  · next n _ =>
    have hclosed : (if (s.work.popInflight.node n).phase = .closing then
        s.work.popInflight.setNode n { s.work.popInflight.node n with phase := .closed }
        else s.work.popInflight).tokensFree := by
      split <;> exact hs.of_same rfl rfl
    refine Work.tokensFree.finishQuiet ?_ _
    split
    · exact hclosed.checkSwitch _ _
    · exact hclosed
  · exact hs

theorem Work.tokensFree.closeOntoTarget {w : Work} (h : w.tokensFree) (n : Nat) : (w.closeOntoTarget n).tokensFree := by
  unfold Work.closeOntoTarget; split
  · unfold Work.queueTarget; split <;> exact h.of_same rfl rfl
  · exact h

theorem execReleaseComplete_tokensFree (h : execReleaseComplete s = .next t) (hs : s.work.tokensFree) :
    t.work.tokensFree := by
  refine tokensFree_of_onWork h ?_
  split
  · refine Work.tokensFree.finishQuiet ?_ _
    split
    · exact Work.tokensFree.closeOntoTarget (hs.of_same (by rfl) (by rfl)) _
    · exact hs.of_same rfl rfl
  · exact hs

theorem execOpenAllComplete_tokensFree (h : execOpenAllComplete s = .next t) (hs : s.work.tokensFree) :
    t.work.tokensFree := by
  refine tokensFree_of_onWork h ?_
  split
  · have hreleased : (s.work.popInflight.onNodes NodeEntry.released).tokensFree := hs.of_same rfl rfl
    exact (hreleased.foldl (fun _ n hv => hv.closeOntoTarget n) _).finishQuiet _
  · exact hs

/-! ### Lanes -/

theorem execCancelLane_tokensFree {a : Byte} (h : execCancelLane a s = .next t) (hs : s.work.tokensFree) :
    t.work.tokensFree := by
  refine tokensFree_of_onWork h ?_
  split
  · exact ((hs.cancelLane _ _).finish _).reply _ _ _
  · exact hs.reply _ _ _

theorem execGo_tokensFree {a : Byte} (h : execGo a s = .next t) (hs : s.work.tokensFree) : t.work.tokensFree := by
  refine tokensFree_of_onWork h ?_
  split
  · exact hs.reply _ _ _
  · split
    · exact hs.reply _ _ _
    · exact ((hs.foldl (fun _ n hv => hv.goLane _ n) _).finish _).reply _ _ _

theorem execPause_tokensFree {a : Byte} (h : execPause a s = .next t) (hs : s.work.tokensFree) : t.work.tokensFree := by
  refine tokensFree_of_onWork h ?_
  split
  · exact hs.reply _ _ _
  · exact ((hs.foldl (fun _ n hv => hv.pauseLane n) _).finish _).reply _ _ _

theorem execLineWrite_tokensFree {a : Byte} (h : execLineWrite a s = .next t) (hs : s.work.tokensFree) :
    t.work.tokensFree := by
  refine tokensFree_of_onWork h (Work.tokensFree.reply (hs.foldl (fun v n hv => ?_) _) _ _ _)
  split
  · exact hv.onLane n _ rfl
  · exact hv

theorem execAdmission_tokensFree {n : LaneId} (h : execAdmission n s = .next t) (hs : s.work.tokensFree) :
    t.work.tokensFree := by
  refine tokensFree_of_onWork h ?_
  split
  · exact (hs.admitHead _ n).finish _
  · exact hs

theorem execFixedSettleExpiry_tokensFree {n : LaneId} (h : execFixedSettleExpiry n s = .next t)
    (hs : s.work.tokensFree) : t.work.tokensFree := by
  refine tokensFree_of_onWork h ?_
  split
  · next c _ =>
    split
    · exact ((hs.onLane n (fun l => { l with c0 := l.c0.expire }) rfl).endSettle _ n c _ _).finish _
    · exact hs
  · exact hs

theorem execAdaptiveSettleEnd_tokensFree {n : LaneId} (h : execAdaptiveSettleEnd n s = .next t)
    (hs : s.work.tokensFree) : t.work.tokensFree := by
  refine tokensFree_of_onWork h ?_
  split
  · next c _ =>
    dsimp only; split
    · split
      · exact ((hs.onLane n (fun l => { l with c0 := (s.work.lane n).c0.stop }) rfl).endSettle _ n c _ _).finish _
      · exact hs.onLane n _ rfl
    · exact hs
  · exact hs

theorem execSourceDelayExpiry_tokensFree {n : LaneId} (h : execSourceDelayExpiry n s = .next t)
    (hs : s.work.tokensFree) : t.work.tokensFree := by
  refine tokensFree_of_onWork h ?_
  split
  · next c _ =>
    split
    · exact ((hs.startEach _ fun _ => by rfl).endSourceDelay _ n c).finish _
    · exact hs
  · exact hs

theorem execGateExpiry_tokensFree {n : LaneId} (h : execGateExpiry n s = .next t) (hs : s.work.tokensFree) :
    t.work.tokensFree := by
  refine tokensFree_of_onWork h ?_
  split
  · next c _ =>
    split
    · exact ((hs.startEach _ fun _ => by rfl).endGate _ n c).finish _
    · exact hs
  · exact hs

theorem execTokenTimeout_tokensFree {n : LaneId} (h : execTokenTimeout n s = .next t) (hs : s.work.tokensFree) :
    t.work.tokensFree := by
  refine tokensFree_of_onWork h ?_
  split
  · next c _ =>
    split
    · exact ((hs.onLane n (fun l => { l with c3 := l.c3.expire }) rfl).enterDeliver _ n c _).finish _
    · exact hs
  · exact hs

theorem execTimeout_tokensFree {n : LaneId} (h : execTimeout n s = .next t) (hs : s.work.tokensFree) :
    t.work.tokensFree := by
  refine tokensFree_of_onWork h ?_
  split
  · split
    · have hexpired := hs.onLane n (fun l => { l with c3 := l.c3.expire }) rfl
      exact (((hexpired.sendAll _ _).stopStep n _).complete _ n _ _).finish _
    · exact hs
  · exact hs

/-! ### Safety triggers -/

theorem execAbortAll_tokensFree (h : execAbortAll s = .next t) (hs : s.work.tokensFree) : t.work.tokensFree :=
  tokensFree_of_onWork h (((hs.safetyAbort _ _).finish _).reply _ _ _)

theorem execSeatingChangeUnseated_tokensFree (h : execSeatingChangeUnseated s = .next t) (hs : s.work.tokensFree) :
    t.work.tokensFree := by
  have hcut : s.work.abandonClose.tokensFree := hs.of_same rfl rfl
  unfold execSeatingChangeUnseated at h
  dsimp only at h
  split at h
  · exact tokensFree_of_inputs h ((hcut.safetyAbort _ _).finish _)
  · obtain rfl := Host.Outcome.next.inj h
    exact hs

theorem execSeatingChangeSeated_tokensFree (h : execSeatingChangeSeated s = .next t) (hs : s.work.tokensFree) :
    t.work.tokensFree := by
  unfold execSeatingChangeSeated at h
  split at h <;> obtain rfl := Host.Outcome.next.inj h
  · exact hs
  · exact hs.of_same rfl rfl

theorem execAbortNEdge_tokensFree (h : execAbortNEdge s = .next t) (hs : s.work.tokensFree) : t.work.tokensFree := by
  unfold execAbortNEdge at h
  dsimp only at h
  split at h
  · exact tokensFree_of_inputs h ((hs.safetyAbort _ _).finish _)
  · obtain rfl := Host.Outcome.next.inj h
    exact hs

/-! ### Unit messages and links -/

theorem execPost_tokensFree {n : LaneId} {r : List Byte} (h : execPost n r s = .next t) (hs : s.work.tokensFree) :
    t.work.tokensFree := by
  refine tokensFree_of_onWork h ?_
  dsimp only; split
  · exact hs.discardFrame n
  · split
    · exact (hs.hunt n).send n _
    · split
      · exact ((hs.hunt n).append n _).send n _
      · exact (hs.hunt n).send n _

theorem execUnitGo_tokensFree {n : LaneId} (h : execUnitGo n s = .next t) (hs : s.work.tokensFree) :
    t.work.tokensFree := by
  refine tokensFree_of_onWork h ?_
  dsimp only; split
  · exact (hs.hunt n).send n _
  · exact (((hs.hunt n).send n _).goLane _ n).finish _

theorem execUnitCancelLane_tokensFree {n : LaneId} (h : execUnitCancelLane n s = .next t) (hs : s.work.tokensFree) :
    t.work.tokensFree := tokensFree_of_onWork h (((hs.hunt n).cancelLane _ n).finish _)

theorem execUnitPause_tokensFree {n : LaneId} (h : execUnitPause n s = .next t) (hs : s.work.tokensFree) :
    t.work.tokensFree := tokensFree_of_onWork h (((hs.hunt n).pauseLane n).finish _)

theorem execReady_tokensFree {n : LaneId} {a : BitVec 16} {b : Byte} (h : execReady n a b s = .next t)
    (hs : s.work.tokensFree) : t.work.tokensFree := tokensFree_of_onWork h (((hs.hunt n).takeReady _ _ _ _).finish _)

theorem execResult_tokensFree {n : LaneId} {a : BitVec 16} {b : Byte} {r : BitVec 24} {f : Byte}
    (h : execResult n a b r f s = .next t) (hs : s.work.tokensFree) : t.work.tokensFree := by
  refine tokensFree_of_onWork h ?_
  split
  · exact hs.discardFrame n
  · exact ((hs.hunt n).takeResult _ _ _ _ _).finish _

theorem execUnitToken_tokensFree {n : LaneId} {a b : Byte} (h : execUnitToken n a b s = .next t)
    (hs : s.work.tokensFree) : t.work.tokensFree := by
  refine tokensFree_of_onWork h ?_
  dsimp only; split
  · exact (hs.hunt n).send n _
  · split
    · exact (hs.hunt n).send n _
    · exact (((hs.hunt n).send n _).postToken _ _).finish _

theorem execLinkFrameDiscarded_tokensFree {n : LaneId} {a : Byte} {b : List Byte}
    (h : execLinkFrameDiscarded n a b s = .next t) (hs : s.work.tokensFree) : t.work.tokensFree :=
  tokensFree_of_onWork h (hs.discardFrame n)

theorem execLinkStopBitError_tokensFree {n : LaneId} (h : execLinkStopBitError n s = .next t)
    (hs : s.work.tokensFree) : t.work.tokensFree :=
  tokensFree_of_onWork h ((hs.onLane n (fun l => { l with arrived := none }) rfl).discardFrame n)

theorem execLinkGapTimeout_tokensFree {n : LaneId} (h : execLinkGapTimeout n s = .next t) (hs : s.work.tokensFree) :
    t.work.tokensFree := by
  refine tokensFree_of_onWork h ?_
  split
  · exact hs.discardFrame n
  · exact hs

theorem execTransmitMessage_tokensFree {n : LaneId} (h : execTransmitMessage n s = .next t) (hs : s.work.tokensFree) :
    t.work.tokensFree := tokensFree_of_onWork h (hs.onLane n _ (by split <;> rfl))

theorem execTransmitEnd_tokensFree {n : LaneId} (h : execTransmitEnd n s = .next t) (hs : s.work.tokensFree) :
    t.work.tokensFree := tokensFree_of_onWork h (hs.onLane n _ (by split <;> rfl))

theorem execLinkStartByte_tokensFree {n : LaneId} (h : execLinkStartByte n s = .next t) (hs : s.work.tokensFree) :
    t.work.tokensFree := tokensFree_of_onWork h (hs.onLane n _ (by split <;> rfl))

/-! ### The commands that empty the token table -/

theorem execHardReset_tokensFree (h : execHardReset s = .next t) : t.work.tokensFree := by
  obtain rfl := Host.Outcome.next.inj h
  exact fun k hk => absurd (Work.reset_token k) hk

theorem execClear_tokensFree (h : execClear s = .next t) : t.work.tokensFree := by
  obtain rfl := Host.Outcome.next.inj h
  exact fun k hk => absurd (Vector.getElem_replicate k.isLt) hk

/-! ### Every command -/

theorem exec_tokensFree {i : Instr} (h : exec i s = .next t) (hs : s.work.tokensFree) : t.work.tokensFree := by
  cases i with
  | hardReset => exact execHardReset_tokensFree h
  | clear => exact execClear_tokensFree h
  | hostRequestAbandoned b => obtain rfl := Host.Outcome.next.inj h; exact hs
  | abortNRise => obtain rfl := Host.Outcome.next.inj h; exact hs
  | stableChange n b => obtain rfl := Host.Outcome.next.inj h; exact hs
  | unknownRequestType type body => obtain rfl := Host.Outcome.next.inj h; exact hs.reply _ _ _
  | postStep => exact execPostStep_tokensFree h hs
  | cancelLane => exact execCancelLane_tokensFree h hs
  | go => exact execGo_tokensFree h hs
  | pause => exact execPause_tokensFree h hs
  | configLane => exact execConfigLane_tokensFree h hs
  | readLane => exact execReadLane_tokensFree h hs
  | loadRegion => exact execLoadRegion_tokensFree h hs
  | readRegion => exact execReadRegion_tokensFree h hs
  | fixtureConfig => exact execFixtureConfig_tokensFree h hs
  | setNode => exact execSetNode_tokensFree h hs
  | freeNode => exact execFreeNode_tokensFree h hs
  | readNode => exact execReadNode_tokensFree h hs
  | takeResults => exact execTakeResults_tokensFree h hs
  | ackNotice => exact execAckNotice_tokensFree h hs
  | setMask => exact execSetMask_tokensFree h hs
  | tokenPost => exact execTokenPost_tokensFree h hs
  | tokenClear token code => exact execTokenClear_tokensFree (b := code) h hs
  | tokenRead token code => exact execTokenRead_tokensFree (b := code) h hs
  | lineWrite => exact execLineWrite_tokensFree h hs
  | abortAll => exact execAbortAll_tokensFree h hs
  | chainReset => exact execChainReset_tokensFree h hs
  | post => exact execPost_tokensFree h hs
  | unitCancelLane => exact execUnitCancelLane_tokensFree h hs
  | unitPause => exact execUnitPause_tokensFree h hs
  | unitGo => exact execUnitGo_tokensFree h hs
  | ready => exact execReady_tokensFree h hs
  | result => exact execResult_tokensFree h hs
  | unitToken => exact execUnitToken_tokensFree h hs
  | linkFrameDiscarded n type body => exact execLinkFrameDiscarded_tokensFree (a := type) (b := body) h hs
  | linkStopBitError => exact execLinkStopBitError_tokensFree h hs
  | linkGapTimeout => exact execLinkGapTimeout_tokensFree h hs
  | transmitMessage => exact execTransmitMessage_tokensFree h hs
  | seatingChangeUnseated => exact execSeatingChangeUnseated_tokensFree h hs
  | seatingChangeSeated => exact execSeatingChangeSeated_tokensFree h hs
  | abortNEdge => exact execAbortNEdge_tokensFree h hs
  | frameShiftBegin => exact execFrameShiftBegin_tokensFree h hs
  | frameShiftEnd => exact execFrameShiftEnd_tokensFree h hs
  | shiftAbandonedEnd => exact execShiftAbandonedEnd_tokensFree h hs
  | openAllShiftBegin => exact execOpenAllShiftBegin_tokensFree h hs
  | openAllShiftEnd => exact execOpenAllShiftEnd_tokensFree h hs
  | closeComplete => exact execCloseComplete_tokensFree h hs
  | releaseComplete => exact execReleaseComplete_tokensFree h hs
  | openAllComplete => exact execOpenAllComplete_tokensFree h hs
  | lingerExpiry => exact execLingerExpiry_tokensFree h hs
  | admission => exact execAdmission_tokensFree h hs
  | fixedSettleExpiry => exact execFixedSettleExpiry_tokensFree h hs
  | adaptiveSettleEnd => exact execAdaptiveSettleEnd_tokensFree h hs
  | sourceDelayExpiry => exact execSourceDelayExpiry_tokensFree h hs
  | gateExpiry => exact execGateExpiry_tokensFree h hs
  | tokenTimeout => exact execTokenTimeout_tokensFree h hs
  | timeout => exact execTimeout_tokensFree h hs
  | linkStartByte => exact execLinkStartByte_tokensFree h hs
  | transmitEnd => exact execTransmitEnd_tokensFree h hs

end Commands

theorem advanceClock_tokensFree {s : State} (h : s.work.tokensFree) : (advanceClock s).work.tokensFree :=
  h.of_steps (fun k hk => by rwa [advanceClock_work]) fun n c hc _ => by rwa [(advanceClock_step s n).1] at hc

theorem idle_tokensFree {s : State} (h : s.work.tokensFree) : (idle s).work.tokensFree := by
  unfold idle; split
  · exact advanceClock_tokensFree h
  · exact h

/-- Settles O10: a step enters TOKEN_WAIT only where its token is unposted (it consumes a post that stands), and a token
is posted only where no step waits on it; no other operation posts a token or writes a step in TOKEN_WAIT. -/
theorem everyStepKeepsWaitedTokensUnposted : Obligations.EveryStepKeepsWaitedTokensUnposted := by
  intro s t hs h
  unfold step at h
  split at h
  · exact exec_tokensFree h hs
  · obtain rfl := Host.Outcome.next.inj h
    exact idle_tokensFree hs

end Sys2Proof.Machine
end

section
/-! PROOFS, family 09_readings_limits_and_results.md: the quotient, the clamp and the limits; O41. -/

namespace Sys2Proof.Machine

/-! ### Correction -/

/-- The quotient lies within a half of P / 32,768, and in a halfway case farther from zero (R159). -/
theorem roundQuotient_nearest (p : Int) :
    2 * (p - 32768 * roundQuotient p).natAbs ≤ 32768 ∧
      (2 * (p - 32768 * roundQuotient p).natAbs = 32768 → p.natAbs < (32768 * roundQuotient p).natAbs) := by
  unfold roundQuotient
  dsimp only
  split <;> omega

theorem clampValue_within {v : Int} (hl : -8388607 ≤ v) (hh : v ≤ 8388607) : clampValue v = (v, false) := by
  rw [clampValue, if_neg (Int.not_lt.2 hh), if_neg (Int.not_lt.2 hl)]

theorem clampValue_above {v : Int} (h : 8388607 < v) : clampValue v = (8388607, true) := if_pos h

theorem clampValue_below {v : Int} (h : v < -8388607) : clampValue v = (-8388607, true) := by
  rw [clampValue, if_neg (show ¬ Config.maxValue < v by simp only [Config.maxValue]; omega), if_pos h]

/-! ### Evaluation -/

/-- The limits present hold, ends included; an absent limit passes every value (R163). -/
theorem withinLimits_iff (low high : Option Int) (v : Int) :
    withinLimits low high v = true ↔ (∀ l, low = some l → l ≤ v) ∧ ∀ h, high = some h → v ≤ h := by
  cases low <;> cases high <;> simp [withinLimits]

/-- A reading whose value is checked is PASS just when the value lies within the limits present (R163). -/
theorem evaluateReading_judged {cfg : LaneConfig} {low high : Option Int} {r : Reading} {v : Int} {saturated : Bool}
    (h : evaluateReading cfg low high r = (v, saturated, if withinLimits low high v then .pass else .fail)) :
    (((∀ l, low = some l → l ≤ v) ∧ ∀ h, high = some h → v ≤ h) →
      evaluateReading cfg low high r = (v, saturated, .pass)) ∧
    (¬ ((∀ l, low = some l → l ≤ v) ∧ ∀ h, high = some h → v ≤ h) →
      evaluateReading cfg low high r = (v, saturated, .fail)) :=
  ⟨fun hw => by rw [h, if_pos ((withinLimits_iff low high v).2 hw)],
    fun hw => by rw [h, if_neg fun hp => hw ((withinLimits_iff low high v).1 hp)]⟩

/-- An OVERRANGE reading has the end of the range on its raw value's side, saturated (R161). -/
theorem evaluateReading_overrange (cfg : LaneConfig) (low high : Option Int) {raw v : Int}
    (hv : (if 0 ≤ raw then Config.maxValue else -Config.maxValue) = v) :
    evaluateReading cfg low high ⟨raw, .overrange⟩ =
      (v, true, if withinLimits low high v then .pass else .fail) := by
  subst hv; rfl

/-- Settles O41: the quotient's distance by arithmetic, the clamp by its three cases, and the outcome from the limits
for each flag. -/
theorem correctionRoundsAndClamps : Obligations.CorrectionRoundsAndClamps := by
  constructor
  · intro gain offset raw
    obtain ⟨hnear, hhalf⟩ := roundQuotient_nearest (raw * gain)
    exact ⟨hnear, hhalf, clampValue_within, clampValue_above, clampValue_below⟩
  · intro cfg low high raw
    exact ⟨evaluateReading_judged rfl,
      fun hraw => evaluateReading_judged (evaluateReading_overrange cfg low high (if_pos hraw)),
      fun hraw => evaluateReading_judged (evaluateReading_overrange cfg low high (if_neg (Int.not_le.2 hraw))), rfl⟩

end Sys2Proof.Machine
end

section
/-! PROOFS, family 09_readings_limits_and_results.md: the bytes of a result record, and the hand-out of freed slots;
O40. -/

namespace Sys2Proof.Machine

/-! ### The fields of a result record -/

section ResultBytes
variable (r : ResultRecord)
open Bytes

theorem resultBytes_length : r.bytes.length = 24 := rfl

theorem resultBytes_tag : u16At r.bytes 0 = r.tag := u16_of16 _

theorem resultBytes_lane : at' r.bytes 2 =
    BitVec.ofNat 8 (r.lane.val + (if r.origin = .unit then 4 else 0) + (if r.follower.isSome then 8 else 0)) := by
  have hunit : 4 * (if r.origin = .unit then 1 else 0) = if r.origin = .unit then 4 else 0 := by split <;> rfl
  have hfused : 8 * r.follower.isSome.toNat = if r.follower.isSome then 8 else 0 := by cases r.follower <;> rfl
  rw [← hunit, ← hfused]; rfl

theorem resultBytes_verdict : at' r.bytes 3 = BitVec.ofNat 8 r.verdict.code := rfl

theorem resultBytes_error : at' r.bytes 4 = BitVec.ofNat 8 ((r.error.map AdmissionError.code).getD 0) := rfl

theorem resultBytes_attempts : at' r.bytes 5 = BitVec.ofNat 8 r.attempts := rfl

theorem resultBytes_marks (i : Nat) :
    (at' r.bytes 6).getLsbD i = [r.saturated, r.capped, r.overpost].getD i false :=
  getLsbD_flagByte (by simp) i

theorem resultBytes_present (i : Nat) : (at' r.bytes 7).getLsbD i =
    [r.raw.isSome, r.settle.isSome, r.token.isSome, (r.follower.bind (·.2)).isSome].getD i false :=
  getLsbD_flagByte (by simp) i

theorem resultBytes_value : u24At r.bytes 8 = BitVec.ofInt 24 r.value := u24_of24 _

theorem resultBytes_raw : u24At r.bytes 11 = BitVec.ofInt 24 (r.raw.getD 0) := u24_of24 _

theorem resultBytes_settle : u16At r.bytes 14 = BitVec.ofNat 16 (r.settle.getD 0) := u16_of16 _

theorem resultBytes_poster : at' r.bytes 16 = BitVec.ofNat 8 ((r.token.map fun p => p.1.code).getD 0) := rfl

theorem resultBytes_token : at' r.bytes 17 = (r.token.map (·.2)).getD 0 := rfl

theorem resultBytes_follower : u24At r.bytes 18 = BitVec.ofInt 24 ((r.follower.map (·.1)).getD 0) := u24_of24 _

theorem resultBytes_followerRaw : u24At r.bytes 21 = BitVec.ofInt 24 ((r.follower.bind (·.2)).getD 0) := u24_of24 _

end ResultBytes

/-! ### One slot -/

theorem Work.mem_waitingSet {w : Work} {n : LaneId} : n ∈ w.waitingSet ↔ (w.lane n).curPhase = .deliver := by
  simp [Work.waitingSet, mem_allLanes]

/-- A lane with no step in DELIVER offers nothing. -/
theorem Work.offer_idle {w : Work} (e : Env) {n : LaneId} (h : n ∉ w.waitingSet) : w.offer e n = w :=
  Work.offer_keeps fun c hc hp => absurd (Work.mem_waitingSet.2 (by rw [Lane.curPhase, hc]; exact hp)) h

/-- A message changes its lane's transmit list, or the causes where that is full (R196). -/
theorem Work.send_tx (w : Work) (n : LaneId) (m : UnitMessage) :
    ∃ tx k, w.send n m = { w.onLane n fun l => { l with tx := tx } with notices := k } := by
  rw [Work.send_eq]
  split
  · exact ⟨(w.lane n).tx ++ [m], w.notices, rfl⟩
  · exact ⟨(w.lane n).tx, _, by rw [Work.onLane, Work.setLane_lane]⟩

/-- DONE to the unit of a step that has one (R106). -/
theorem Work.send_done_tx (w : Work) (n : LaneId) (c : CurStep) (v : Verdict) :
    ∃ tx k, (if c.step.origin = .unit then w.send n (.done c.step.tag v) else w) =
      { w.onLane n fun l => { l with tx := tx } with notices := k } := by
  split
  · exact w.send_tx n _
  · exact ⟨(w.lane n).tx, w.notices, by rw [Work.onLane, Work.setLane_lane]⟩

/-- What a hand-out to some lanes leaves (R172): their records at the tail of the result queue in that order, the last
of them the last delivering lane, and every other lane as it stood. Causes may be raised, and DONE may go to a unit. -/
structure Work.HandsOut (w : Work) (given : List LaneId) (v : Work) : Prop where
  cur : ∀ n ∈ given, (v.lane n).cur = none
  others : ∀ n, n ∉ given → v.lane n = w.lane n
  results : v.results = w.results ++ given.filterMap fun n => (w.lane n).cur.bind (·.record)
  last : v.lastDelivering = given.getLast?.getD w.lastDelivering
  nodes : v.nodes = w.nodes
  chain : v.chain = w.chain
  tokens : v.tokens = w.tokens
  wake : v.wake = w.wake

theorem Work.HandsOut.refl (w : Work) : w.HandsOut [] w :=
  ⟨nofun, fun _ _ => rfl, (List.append_nil _).symm, rfl, rfl, rfl, rfl, rfl⟩

/-- A slot for one lane, and the rest of the hand-out after it. -/
theorem Work.HandsOut.cons {u v w : Work} {n : LaneId} {ns : List LaneId} (h : u.HandsOut [n] v) (k : v.HandsOut ns w)
    (hn : n ∉ ns) : u.HandsOut (n :: ns) w := by
  have hlane : ∀ m, m ≠ n → v.lane m = u.lane m := fun m hm => h.others m (by simpa using hm)
  refine ⟨fun m hm => ?_, fun m hm => ?_, ?_, ?_, k.nodes.trans h.nodes, k.chain.trans h.chain, k.tokens.trans h.tokens,
    k.wake.trans h.wake⟩
  · by_cases hns : m ∈ ns
    · exact k.cur m hns
    · rw [k.others m hns]
      exact h.cur m (by simpa [hns] using hm)
  · obtain ⟨hmn, hns⟩ := not_or.1 fun h => hm (List.mem_cons.2 h)
    rw [k.others m hns, hlane m hmn]
  · have hrecords : (ns.filterMap fun m => (v.lane m).cur.bind (·.record)) =
        ns.filterMap fun m => (u.lane m).cur.bind (·.record) :=
      List.filterMap_congr fun m hm => by rw [hlane m fun he => hn (he ▸ hm)]
    rw [k.results, h.results, hrecords, List.append_assoc, ← List.filterMap_append, List.singleton_append]
  · rw [k.last, h.last]
    simp [List.getLast?_cons]

/-- The delivery of a step that is not FUSED, with room in its transmit list or without (R106, R196). -/
theorem Work.deliver_unfused {w : Work} (e : Env) {n : LaneId} {c : CurStep} (r : ResultRecord)
    (hf : c.step.flags.fused = false) (hz : (w.lane n).frozen = false) :
    ∃ l k, l.cur = none ∧
      w.deliver e n c r = { w.setLane n l with results := w.results ++ [r], lastDelivering := n, notices := k } := by
  obtain ⟨k₁, hentered⟩ := w.enterResult_notices n r
  obtain ⟨tx, k₂, hsent⟩ := (w.enterResult n r).send_done_tx n c r.verdict
  obtain ⟨x, hx⟩ : ∃ x : Work, x = { (w.enterResult n r).onLane n fun l => { l with tx := tx } with notices := k₂ } :=
    ⟨_, rfl⟩
  obtain ⟨k₃, hnoted⟩ := (x.setCur n none).noteRemoval_notices e n ((x.lane n).queue.length + 1)
    ((x.lane n).queue.length + 1 - 1)
  obtain ⟨k₄, hraised⟩ := ({ x.setCur n none with notices := k₃ } : Work).raiseVerdict_notices (e.cfg n) n r.verdict
  obtain ⟨l, hl⟩ : ∃ l : Lane, l = ({ w.lane n with tx := tx } : Lane).delivered (verdictHalts (e.cfg n) r.verdict) :=
    ⟨_, rfl⟩
  have hdelivered : w.delivery e n c r =
      { w.setLane n l with results := w.results ++ [r], lastDelivering := n, notices := k₄ } := by
    rw [Work.delivery, hsent, ← hx, Work.endPair_single _ hf]
    dsimp only
    rw [hnoted, hraised, hx, hentered, hl]
    simp [Work.onLane, Work.setCur, Lane.delivered, Work.lane, Work.setLane]
  refine ⟨l, k₄, by rw [hl]; exact Lane.delivered_cur _ _, ?_⟩
  have hthawed : ((w.setLane n l).lane n).frozen = false := by
    rw [Work.lane_setLane, hl, Lane.delivered_frozen]; exact hz
  rw [Work.deliver_eq, hdelivered]
  exact Work.tryFollow_unfrozen e hthawed

/-- That delivery hands out one slot: it leaves the nodes, the chain, the tokens and the mark `wake`. -/
theorem Work.deliver_handsOut {w : Work} (e : Env) {n : LaneId} {c : CurStep} {r : ResultRecord}
    (hc : (w.lane n).cur = some c) (hr : c.record = some r) (hf : c.step.flags.fused = false)
    (hz : (w.lane n).frozen = false) : w.HandsOut [n] (w.deliver e n c r) := by
  obtain ⟨l, k, hl, hdelivered⟩ := Work.deliver_unfused e r hf hz
  rw [hdelivered]
  refine ⟨fun m hm => ?_, fun m hm => ?_, ?_, rfl, rfl, rfl, rfl, rfl⟩
  · rw [List.mem_singleton.1 hm]
    exact (congrArg Lane.cur (w.lane_setLane n l)).trans hl
  · exact w.lane_setLane_ne l fun he => hm (List.mem_singleton.2 he)
  · simp [hc, hr]

/-! ### The hand-out -/

/-- The lane is not frozen, and a step of it in DELIVER has its record and no follower. -/
structure Lane.ReadyToDeliver (l : Lane) : Prop where
  thawed : l.frozen = false
  record : l.curPhase = .deliver → ∃ c r, l.cur = some c ∧ c.record = some r ∧ c.step.flags.fused = false

/-- A waiting lane takes a slot while one is free (R170). -/
theorem Work.offer_handsOut {w : Work} (e : Env) {n : LaneId} (h : (w.lane n).ReadyToDeliver) (hn : n ∈ w.waitingSet)
    (hlen : w.results.length < 128) : w.HandsOut [n] (w.offer e n) := by
  have hphase := Work.mem_waitingSet.1 hn
  obtain ⟨c, r, hc, hr, hf⟩ := h.record hphase
  rw [Work.offer_delivers e hc (by rwa [Lane.curPhase, hc] at hphase) hr hlen]
  exact Work.deliver_handsOut e hc hr hf h.thawed

/-- The waiting lanes among some lanes get the free slots in the order of the list, as far as these go (R172). -/
theorem Work.offers_handsOut (e : Env) (ns : List LaneId) (hns : ns.Nodup) (w : Work)
    (h : ∀ n ∈ ns, (w.lane n).ReadyToDeliver) :
    w.HandsOut ((ns.filter fun n => n ∈ w.waitingSet).take (128 - w.results.length))
      (ns.foldl (fun w n => w.offer e n) w) := by
  induction ns generalizing w with
  | nil =>
    rw [List.filter_nil, List.take_nil]
    exact Work.HandsOut.refl w
  | cons n ns ih =>
    obtain ⟨hnew, hrest⟩ := List.nodup_cons.1 hns
    have htail : ∀ m ∈ ns, (w.lane m).ReadyToDeliver := fun m hm => h m (List.mem_cons_of_mem n hm)
    rw [List.foldl_cons]
    by_cases hn : n ∈ w.waitingSet
    · rw [List.filter_cons_of_pos (by simpa using hn)]
      by_cases hlen : w.results.length < 128
      · have hone := Work.offer_handsOut e (h n List.mem_cons_self) hn hlen
        obtain ⟨v, hv⟩ : ∃ v, v = w.offer e n := ⟨_, rfl⟩
        rw [← hv] at hone ⊢
        have hlane : ∀ m ∈ ns, v.lane m = w.lane m := fun m hm =>
          hone.others m fun he => hnew (List.mem_singleton.1 he ▸ hm)
        have hwaiting : (ns.filter fun m => m ∈ v.waitingSet) = ns.filter fun m => m ∈ w.waitingSet :=
          List.filter_congr fun m hm => by simp only [Work.mem_waitingSet, hlane m hm]
        have hlonger : v.results.length = w.results.length + 1 := by
          obtain ⟨c, r, hc, hr, -⟩ := (h n List.mem_cons_self).record (Work.mem_waitingSet.1 hn)
          simp [hone.results, hc, hr]
        have hroom : 128 - w.results.length = 128 - v.results.length + 1 := by omega
        rw [hroom, List.take_succ_cons, ← hwaiting]
        exact hone.cons (ih hrest v fun m hm => by rw [hlane m hm]; exact htail m hm)
          fun hm => hnew (List.mem_filter.1 (List.mem_of_mem_take hm)).1
      · have hfull : 128 - w.results.length = 0 := by omega
        have hrefused : w.offer e n = w := Work.offer_keeps fun _ _ _ => Nat.not_lt.1 hlen
        have htaken := ih hrest w htail
        rw [hfull, List.take_zero] at htaken ⊢
        rwa [hrefused]
    · rw [Work.offer_idle e hn, List.filter_cons_of_neg (by simpa using hn)]
      exact ih hrest w htail

theorem nodup_lanesAfter : ∀ n : LaneId, (lanesAfter n).Nodup := by decide

/-- With no lane in DELIVER, freed slots stay free. -/
theorem Work.handOut_idle {w : Work} (h : w.waitingSet = []) (e : Env) : w.handOut e = w := by
  have hidle : ∀ n, w.offer e n = w := fun n => Work.offer_idle e (by rw [h]; exact List.not_mem_nil)
  simp only [Work.handOut, lanesAfter, List.foldl_cons, List.foldl_nil, hidle]

/-! ### TAKE_RESULTS -/

theorem exec_takeResults_format {s : State} {count : Byte} (h : 16 < count.toNat) :
    exec (.takeResults count) s = .next { s with work := s.work.reply 0x0D .format [] } := by
  change execTakeResults count s = _
  simp only [execTakeResults, onWork_eq, if_pos h]

/-- The records that TAKE_RESULTS takes leave, the freed slots are handed out, and the reply carries the records. -/
theorem exec_takeResults {s : State} {count : Byte} (h : count.toNat ≤ 16) :
    let taken := s.work.results.take count.toNat
    let left := s.work.results.drop count.toNat
    let w : Work := { s.work with results := left }
    exec (.takeResults count) s =
      .next { s with
        work := ((if taken = [] then w else w.handOut s.env).finish s.env).reply 0x0D .ok
          (BitVec.ofNat 8 taken.length :: BitVec.ofNat 8 left.length :: taken.flatMap ResultRecord.bytes) } := by
  change execTakeResults count s = _
  simp only [execTakeResults, onWork_eq, if_neg (Nat.not_lt.2 h), List.isEmpty_iff]
  rfl

/-- Settles O40: a hand-out goes down the lanes in rotating order, each waiting lane taking a slot while one is free;
the bytes field by field. -/
theorem takeResultsReturnsTheOldest : Obligations.TakeResultsReturnsTheOldest := by
  refine ⟨fun s count => ⟨exec_takeResults_format, fun hcount hnone ⟨hwake, _⟩ => ?_,
    fun hcount htaken ⟨hwake, _⟩ hthawed hwaits => ?_⟩, fun r => ?_⟩
  · obtain ⟨w, hw⟩ : ∃ w : Work, w = { s.work with results := s.work.results.drop count.toNat } := ⟨_, rfl⟩
    have hidle : w.handOut s.env = w := Work.handOut_idle (by rw [hw]; exact hnone) _
    rw [exec_takeResults hcount, ← hw, hidle, ite_self, Work.finish_rested (by rw [hw]; exact hwake)]
  · have hready : ∀ n : LaneId, (s.work.lane n).ReadyToDeliver := fun n =>
      ⟨hthawed n, fun hp => hwaits n (Work.mem_waitingSet.2 hp)⟩
    have hgiven := Work.offers_handsOut s.env _ (nodup_lanesAfter s.work.lastDelivering)
      { s.work with results := s.work.results.drop count.toNat } fun n _ => hready n
    refine ⟨_, ?_, hgiven.results, hgiven.last, hgiven.cur, hgiven.others, hgiven.nodes, hgiven.chain, hgiven.tokens⟩
    rw [exec_takeResults hcount, if_neg htaken, Work.finish_rested]
    · rfl
    · exact hgiven.wake.trans hwake
  · refine ⟨resultBytes_length r, resultBytes_tag r, resultBytes_lane r, ?_, ?_, resultBytes_attempts r,
      resultBytes_marks r, resultBytes_present r, resultBytes_value r, resultBytes_raw r, resultBytes_settle r, ?_, ?_,
      resultBytes_follower r, resultBytes_followerRaw r⟩
    · rw [resultBytes_verdict]
      cases r.verdict <;> rfl
    · rw [resultBytes_error]
      rcases r.error with _ | err
      · rfl
      · cases err <;> rfl
    · intro htoken
      rw [resultBytes_poster, resultBytes_token, htoken]
      exact ⟨rfl, rfl⟩
    · intro p code htoken
      rw [resultBytes_poster, resultBytes_token, htoken]
      exact ⟨rfl, by cases p <;> rfl⟩

end Sys2Proof.Machine
end

section
/-! PROOFS, family 11_host_port_and_unit_links.md: the command queue, and that every command completes; O1 and O4. -/

namespace Sys2Proof.Machine

/-- Settles O1: both sides are the first arm of step. -/
theorem stepRunsFrontCommand : Obligations.StepRunsFrontCommand := fun _ _ _ => rfl

/-! ### Completion -/

/-- The answer is a next state: no fault and no refusal. -/
def Completes (a : Answer) : Prop := ∃ t, a = .next t

theorem completes_next (t : State) : Completes (.next t) := ⟨t, rfl⟩

theorem completes_onWork (s : State) (f : Work → Work) : Completes (onWork s f) := ⟨_, rfl⟩

/-- A command that tests a condition completes when both of its branches do. -/
theorem completes_ite {p : Prop} [Decidable p] {a b : Answer} (ha : Completes a) (hb : Completes b) :
    Completes (if p then a else b) := by
  split
  · exact ha
  · exact hb

theorem execLoadRegion_completes (region : Byte) (start size offset : BitVec 16) (s : State) :
    Completes (execLoadRegion region start size offset s) := by
  unfold execLoadRegion
  split
  · exact completes_onWork _ _
  · split
    · exact completes_next _
    · exact completes_onWork _ _

theorem execConfigLane_completes (lane en fa ta : Byte) (gain : BitVec 16) (offset : BitVec 24) (linger : BitVec 16)
    (low mode : Byte) (s : State) : Completes (execConfigLane lane en fa ta gain offset linger low mode s) := by
  unfold execConfigLane
  split
  · exact completes_ite (completes_next _) (completes_onWork _ _)
  · exact completes_onWork _ _

/-- The commands that test a condition before they act on the blocks have a case of their own; every other one is a
next state or an action on the blocks as it stands. -/
theorem exec_completes (i : Instr) (s : State) : Completes (exec i s) := by
  cases i with
  | loadRegion => exact execLoadRegion_completes _ _ _ _ s
  | configLane => exact execConfigLane_completes _ _ _ _ _ _ _ _ _ s
  | fixtureConfig =>
    exact completes_ite (completes_onWork _ _) (completes_ite (completes_onWork _ _) (completes_next _))
  | setMask => exact completes_ite (completes_onWork _ _) (completes_next _)
  | seatingChangeUnseated => exact completes_ite (completes_onWork _ _) (completes_next _)
  | seatingChangeSeated => exact completes_ite (completes_next _) (completes_onWork _ _)
  | abortNEdge => exact completes_ite (completes_onWork _ _) (completes_next _)
  | _ => exact ⟨_, rfl⟩

/-! ### The queue and the race key -/

/-- No write of a command but hard reset reaches the queue or the race key. -/
theorem Writes.queue {s t : State} {i : Instr} (h : Writes s i t) (hi : i ≠ .hardReset) :
    t.pending = s.pending ∧ t.race = s.race := by
  cases h with
  | hardReset => exact absurd rfl hi
  | blocks | regions | lanes | fixture | masks | pins => exact ⟨rfl, rfl⟩

/-- Hard reset keeps the queue and the race key by its own assignment, every other command by what it writes. -/
theorem exec_queue {s t : State} {i : Instr} (h : exec i s = .next t) : t.pending = s.pending ∧ t.race = s.race := by
  by_cases hi : i = .hardReset
  · subst hi
    obtain rfl := Host.Outcome.next.inj ((exec_hardReset s).symm.trans h)
    exact ⟨rfl, rfl⟩
  · exact (exec_writes h).queue hi

/-- Settles O4: completion command by command, and the queue by what each command writes. -/
theorem everyCommandCompletesAndKeepsTheQueue : Obligations.EveryCommandCompletesAndKeepsTheQueue := by
  intro i s
  obtain ⟨t, h⟩ := exec_completes i s
  exact ⟨t, h, exec_queue h⟩

end Sys2Proof.Machine
end

section
/-! PROOFS, family 11_host_port_and_unit_links.md: the bytes of requests and unit frames; O13. -/

namespace Sys2Proof

open Bytes

/-! ### Requests -/

/-- A request within the longest body is read by its type and its own body, whatever follows it (R190, R191). -/
theorem decodeTransaction_request (type : Byte) (body extra : List Byte) (h : body.length ≤ 512) :
    decodeTransaction (type :: of16 (BitVec.ofNat 16 body.length) ++ body ++ extra) = decodeRequest type body := by
  have hlen : (u16 ((BitVec.ofNat 16 body.length).extractLsb' 8 8)
      ((BitVec.ofNat 16 body.length).extractLsb' 0 8)).toNat = body.length := toNat_u16_of16 (by omega)
  have hbehind : ¬ (body ++ extra).length < body.length := by simp
  simp only [of16, List.cons_append, List.nil_append, decodeTransaction, hlen]
  rw [if_neg (Nat.not_lt.2 h), if_neg hbehind, List.take_left]

theorem decodeRequest_of_wellFormed_postStep {lane : Byte} {record : List Byte}
    (h : (Instr.postStep lane record).wellFormed = true) :
    decodeRequest 0x01 (lane :: record) = .postStep lane record := eq_of_beq h

/-- A refused request whose body is not too long is refused for its type or form (log entry 7). -/
theorem decodeRequest_of_wellFormed_unknown {type : Byte} {body : List Byte}
    (h : (Instr.unknownRequestType type body).wellFormed = true) (hlen : body.length ≤ 512) :
    decodeRequest type body = .unknownRequestType type body := by
  rcases Bool.or_eq_true_iff.1 h with h | h
  · exact eq_of_beq h
  · exact absurd hlen (Nat.not_le.2 (of_decide_eq_true h))

/-- Every request form reads back by its type and its fields (section 11.6). -/
theorem decodeRequest_encodeRequest {i : Instr} {type : Byte} {body : List Byte} (hi : i.wellFormed = true)
    (h : encodeRequest i = some (type, body)) (hlen : body.length ≤ 512) : decodeRequest type body = i := by
  cases i with
  | postStep lane record => cases h; exact decodeRequest_of_wellFormed_postStep hi
  | unknownRequestType => cases h; exact decodeRequest_of_wellFormed_unknown hi hlen
  | freeNode node => cases h; exact congrArg Instr.freeNode (u16_of16 node)
  | readNode node => cases h; exact congrArg Instr.readNode (u16_of16 node)
  | setNode node bus => cases h; exact congrArg (Instr.setNode · bus) (u16_of16 node)
  | loadRegion region start size offset =>
    cases h
    change Instr.loadRegion region (u16 _ _) (u16 _ _) (u16 _ _) = _
    rw [u16_of16, u16_of16, u16_of16]
  | fixtureConfig count close release =>
    cases h
    change Instr.fixtureConfig (u16 _ _) (u16 _ _) (u16 _ _) = _
    rw [u16_of16, u16_of16, u16_of16]
  | configLane lane en fa ta gain offset linger low mode =>
    cases h
    change Instr.configLane lane en fa ta (u16 _ _) (u24 _ _ _) (u16 _ _) low mode = _
    rw [u16_of16, u24_of24, u16_of16]
  | cancelLane | go | pause | readLane | readRegion | takeResults | ackNotice | setMask | tokenPost | tokenClear
  | tokenRead | lineWrite | abortAll | chainReset | clear => cases h; rfl
  | _ => nomatch h

/-! ### Unit frames -/

theorem recordLengthOk_of_wellFormed_post {lane : LaneId} {record : List Byte}
    (h : (Instr.post lane record).wellFormed = true) : recordLengthOk record = true := (Bool.and_eq_true_iff.1 h).1

theorem decodeFrame_of_wellFormed_discarded {lane : LaneId} {type : Byte} {body : List Byte}
    (h : (Instr.linkFrameDiscarded lane type body).wellFormed = true) :
    decodeFrame lane type body = .linkFrameDiscarded lane type body := eq_of_beq (Bool.and_eq_true_iff.1 h).1

/-- Every unit message reads back by its type and its fields (section 11.6). -/
theorem decodeFrame_encodeFrame {i : Instr} {lane : LaneId} {type : Byte} {body : List Byte} (hi : i.wellFormed = true)
    (h : encodeFrame i = some (lane, type, body)) : decodeFrame lane type body = i := by
  cases i with
  | post => cases h; exact if_pos (recordLengthOk_of_wellFormed_post hi)
  | linkFrameDiscarded => cases h; exact decodeFrame_of_wellFormed_discarded hi
  | result lane tag attempt raw flag =>
    cases h
    have hflag : flag.toNat ≤ 2 := of_decide_eq_true hi
    simp [decodeFrame, of16, of24, hflag]
  | ready => cases h; simp [decodeFrame, of16]
  | unitCancelLane | unitPause | unitGo | unitToken => cases h; rfl
  | _ => nomatch h

/-- Settles O13: the header leaves the body of the request, and each form reads its own fields back. -/
theorem requestsAndFramesReadBack : Obligations.RequestsAndFramesReadBack := by
  refine fun i hi => ⟨fun type body extra h hlen => ?_, fun lane type body h => decodeFrame_encodeFrame hi h⟩
  rw [decodeTransaction_request type body extra hlen]
  exact decodeRequest_encodeRequest hi h hlen

end Sys2Proof
end

section
/-! PROOFS, family 11_host_port_and_unit_links.md: the notice table, its masks and NOTICE_N; O21. -/

namespace Sys2Proof.Machine

/-! ### Sets of sources -/

theorem Work.getLsbD_pendingSources (w : Work) (i : Nat) :
    w.pendingSources.getLsbD i = true ↔ ∃ h : i < 6, w.notices[i] ≠ 0 := by
  rw [Work.pendingSources, BitVec.getLsbD_ofNat, testBit_ofBits]
  by_cases hi : i < 6
  · simp [hi]
  · simp [hi]

theorem getLsbD_sourceByte (v : BitVec 6) (i : Nat) : (sourceByte v).getLsbD i = v.getLsbD i := by
  rw [sourceByte, BitVec.getLsbD_setWidth]
  by_cases hi : i < 8
  · simp [hi]
  · simp [hi, BitVec.getLsbD_of_ge v i (by omega)]

/-- The byte of the pending sources has bit n for source n (R198, R199). -/
theorem Work.getLsbD_sourceByte_pending (w : Work) (i : Nat) :
    (sourceByte w.pendingSources).getLsbD i = true ↔ ∃ h : i < 6, w.notices[i] ≠ 0 := by
  rw [getLsbD_sourceByte, w.getLsbD_pendingSources]

/-- An emptied source is pending no more, and every other one stays as it was (R198). -/
theorem Work.getLsbD_sourceByte_emptied (w : Work) (k : Fin 6) (i : Nat) :
    (sourceByte ({ w with notices := w.notices.set k.val 0 }).pendingSources).getLsbD i = true ↔
      i ≠ k.val ∧ ∃ h : i < 6, w.notices[i] ≠ 0 := by
  rw [Work.getLsbD_sourceByte_pending]
  by_cases hi : i = k.val
  · subst hi
    simp
  · simp only [ne_eq, hi, not_false_iff, true_and, Vector.getElem_set_ne k.isLt _ (Ne.symm hi)]

/-! ### The source that ACK_NOTICE picks -/

/-- A source has a pending cause and is not masked (R197, R198). -/
def showing (fix : Fixed) (w : Work) (k : Fin 6) : Bool := !fix.masks.getLsbD k.val && w.notices[k.val] != 0

theorem showing_iff (fix : Fixed) (w : Work) (k : Fin 6) :
    showing fix w k = true ↔ fix.masks.getLsbD k.val = false ∧ w.notices[k.val] ≠ 0 := by
  simp [showing]

theorem showing_eq_false_iff (fix : Fixed) (w : Work) (k : Fin 6) :
    showing fix w k = false ↔ fix.masks.getLsbD k.val = true ∨ w.notices[k.val] = 0 := by
  rw [showing, Bool.and_eq_false_iff, Bool.not_eq_false', bne_eq_false_iff_eq]

theorem pickSource_eq (fix : Fixed) (w : Work) : pickSource fix w = (List.finRange 6).find? (showing fix w) := rfl

/-- The sources stand in priority order, so the first that shows is the one of lowest number (R198). -/
theorem pickSource_of_first {fix : Fixed} {w : Work} {k : Fin 6} (hk : showing fix w k = true)
    (hfirst : ∀ j : Fin 6, j < k → showing fix w j = false) : pickSource fix w = some k := by
  rw [pickSource_eq]
  refine List.find?_eq_some_iff_getElem.2 ⟨hk, k.val, by simp, by simp, fun j hj => ?_⟩
  simpa using hfirst ⟨j, hj.trans k.isLt⟩ hj

theorem pickSource_none {fix : Fixed} {w : Work} (h : ∀ j : Fin 6, showing fix w j = false) :
    pickSource fix w = none := by
  rw [pickSource_eq]
  exact List.find?_eq_none.2 fun j _ => by simp [h j]

/-! ### The requests and the pin -/

section Requests

variable {s : State}

theorem exec_ackNotice_some {k : Fin 6} (h : pickSource s.fix s.work = some k) :
    exec .ackNotice s = .next
      { s with
        work := ({ s.work with notices := s.work.notices.set k.val 0 }).reply 0x0E .ok
          [BitVec.ofNat 8 k.val, (s.work.notices[k.val]).setWidth 8,
            sourceByte ({ s.work with notices := s.work.notices.set k.val 0 }).pendingSources] } := by
  change execAckNotice s = _
  simp only [execAckNotice, onWork_eq, h]
  rfl

theorem exec_ackNotice_none (h : pickSource s.fix s.work = none) :
    exec .ackNotice s = .next { s with work := s.work.reply 0x0E .none [sourceByte s.work.pendingSources] } := by
  change execAckNotice s = _
  simp only [execAckNotice, onWork_eq, h]

theorem exec_setMask_format {masks : Byte} (h : 64 ≤ masks.toNat) :
    exec (.setMask masks) s = .next { s with work := s.work.reply 0x0F .format [] } := if_pos h

theorem exec_setMask {masks : Byte} (h : masks.toNat < 64) :
    exec (.setMask masks) s = .next
      { s with
        fix := { s.fix with masks := BitVec.ofNat 6 masks.toNat }
        work := s.work.reply 0x0F .ok [sourceByte s.work.pendingSources] } := if_neg (Nat.not_le.2 h)

end Requests

/-- NOTICE_N is low just while a source shows (R197). -/
theorem noticeLow_iff (fix : Fixed) (w : Work) : noticeLow fix w = true ↔ ∃ k : Fin 6, showing fix w k = true := by
  have hbit : ∀ k : Fin 6, (w.pendingSources &&& ~~~fix.masks).getLsbD k.val = showing fix w k := fun k => by
    rw [Bool.eq_iff_iff, showing_iff, BitVec.getLsbD_and, BitVec.getLsbD_not, Bool.and_eq_true_iff,
      Work.getLsbD_pendingSources]
    simp [and_comm]
  have hzero : w.pendingSources &&& ~~~fix.masks = 0 ↔ ∀ k : Fin 6, showing fix w k = false := by
    refine ⟨fun h k => ?_, fun h => BitVec.eq_of_getLsbD_eq fun i hi => ?_⟩
    · rw [← hbit, h]
      exact BitVec.getLsbD_zero
    · rw [hbit ⟨i, hi⟩, h]
      exact BitVec.getLsbD_zero.symm
  rw [noticeLow, bne_iff_ne, Ne, hzero]
  simp

/-- Settles O21: the source picked is the first that shows, the byte of every reply is read bit by bit, and NOTICE_N
looks at the same sources. -/
theorem noticesAreMaskedAndAcknowledged : Obligations.NoticesAreMaskedAndAcknowledged := by
  intro s
  refine ⟨fun k hmask hcause hfirst => ⟨_, exec_ackNotice_some (pickSource_of_first ?shows ?first),
      s.work.getLsbD_sourceByte_emptied k⟩,
    fun hnone => ⟨_, exec_ackNotice_none (pickSource_none fun j => (showing_eq_false_iff ..).2 (hnone j)),
      s.work.getLsbD_sourceByte_pending⟩,
    fun masks => ⟨exec_setMask_format, fun h => ⟨_, exec_setMask h, s.work.getLsbD_sourceByte_pending⟩⟩,
    ?pin, ⟨_, exec_hardReset s, rfl⟩, ⟨_, exec_clear s, rfl⟩⟩
  case shows => exact (showing_iff ..).2 ⟨hmask, hcause⟩
  case first => exact fun j hj => (showing_eq_false_iff ..).2 (hfirst j hj)
  case pin => simp only [noticeLow_iff, showing_iff]

end Sys2Proof.Machine
end

section
/-! PROOFS, family 11_host_port_and_unit_links.md: the events of a unit link, and its bytes at a clock; O48. -/

namespace Sys2Proof.Machine

section Events

variable {s : State} {n : LaneId} {l : Lane} {taken : List Byte} {gap : Nat}

/-! ### Faults of the receiver -/

theorem exec_linkFrameDiscarded (type : Byte) (body : List Byte) :
    exec (.linkFrameDiscarded n type body) s =
      .next { s with work := (s.work.setLane n { s.work.lane n with rx := .hunting }).raise (.linkError n) } := rfl

theorem exec_linkStopBitError :
    exec (.linkStopBitError n) s = .next
      { s with
        work := (s.work.setLane n { s.work.lane n with rx := .hunting, arrived := none }).raise (.linkError n) } := by
  change execLinkStopBitError n s = _
  simp [execLinkStopBitError, Work.discardFrame, Work.hunt, Work.onLane]

theorem Receiver.gapExceeded_iff (r : Receiver) :
    r.gapExceeded = true ↔ ∃ taken gap, r = .inFrame taken gap ∧ 1000 < gap := by
  cases r with
  | hunting => simp [Receiver.gapExceeded]
  | inFrame taken gap => simp [Receiver.gapExceeded]

theorem exec_linkGapTimeout (h : (s.work.lane n).rx = .inFrame taken gap) (hgap : 1000 < gap) :
    exec (.linkGapTimeout n) s =
      .next { s with work := (s.work.setLane n { s.work.lane n with rx := .hunting }).raise (.linkError n) } := by
  have hover := (Receiver.gapExceeded_iff _).2 ⟨taken, gap, h, hgap⟩
  change execLinkGapTimeout n s = _
  simp only [execLinkGapTimeout, onWork_eq, if_pos hover]
  rfl

theorem exec_linkGapTimeout_idle (h : ∀ taken gap, (s.work.lane n).rx = .inFrame taken gap → gap ≤ 1000) :
    exec (.linkGapTimeout n) s = .next s := by
  have hwithin : ¬ (s.work.lane n).rx.gapExceeded = true := fun hover =>
    have ⟨taken, gap, hrx, hgap⟩ := (Receiver.gapExceeded_iff _).1 hover
    absurd (h taken gap hrx) (Nat.not_le.2 hgap)
  change execLinkGapTimeout n s = _
  simp only [execLinkGapTimeout, onWork_eq, if_neg hwithin]

/-! ### The start byte -/

theorem exec_linkStartByte_hunting (h : (s.work.lane n).rx = .hunting) :
    exec (.linkStartByte n) s =
      .next { s with work := s.work.setLane n { s.work.lane n with rx := .inFrame [] 0, arrived := none } } := by
  change execLinkStartByte n s = _
  simp only [execLinkStartByte, onWork_eq, Work.onLane, h]

theorem exec_linkStartByte_inFrame (h : (s.work.lane n).rx = .inFrame taken gap) :
    exec (.linkStartByte n) s = .next
      { s with
        work := s.work.setLane n { s.work.lane n with rx := .inFrame (taken ++ [0x7E]) 0, arrived := none } } := by
  change execLinkStartByte n s = _
  simp only [execLinkStartByte, onWork_eq, Work.onLane, h]

/-! ### The message on the line -/

theorem exec_transmitMessage {m : UnitMessage} {rest : List UnitMessage} (hfree : (s.work.lane n).sending = none)
    (htx : (s.work.lane n).tx = m :: rest) :
    exec (.transmitMessage n) s =
      .next { s with work := s.work.setLane n { s.work.lane n with sending := some (40 * m.frame.length) } } := by
  change execTransmitMessage n s = _
  simp only [execTransmitMessage, onWork_eq, Work.onLane, hfree, htx]
  rfl

theorem exec_transmitEnd (h : (s.work.lane n).sending = some 0) :
    exec (.transmitEnd n) s = .next
      { s with
        work := s.work.setLane n { s.work.lane n with tx := (s.work.lane n).tx.tail, sending := none } } := by
  change execTransmitEnd n s = _
  simp only [execTransmitEnd, onWork_eq, Work.onLane, if_pos h]

theorem exec_transmitEnd_early {k : Nat} (h : (s.work.lane n).sending = some (k + 1)) :
    exec (.transmitEnd n) s = .next s := by
  have hgoing : ¬ (s.work.lane n).sending = some 0 := by simp [h]
  change execTransmitEnd n s = _
  simp only [execTransmitEnd, onWork_eq, Work.onLane, if_neg hgoing, Work.setLane_lane]

/-! ### The events that stand -/

theorem mem_standing_of_link {i : Instr} (h : i ∈ linkStanding s.work n) : i ∈ standing s :=
  List.mem_append_right _ (List.mem_flatMap.2 ⟨n, mem_allLanes n, h⟩)

theorem mem_standing_of_message {i : Instr} (h : (s.work.lane n).rx.message n = some i) : i ∈ standing s :=
  mem_standing_of_link (n := n) (by simp [linkStanding, h])

theorem mem_standing_of_byte {i : Instr} (h : i ∈ byteStanding (s.work.lane n) n) : i ∈ standing s :=
  mem_standing_of_link (List.mem_append_right _ h)

/-- The declared number of body bytes has come (R194, R195). -/
theorem Receiver.message_complete (n : LaneId) (type : Byte) {body : List Byte} (gap : Nat) (h : body.length < 256) :
    (Receiver.inFrame (type :: BitVec.ofNat 8 body.length :: body) gap).message n = some (decodeFrame n type body) := by
  have hlen : (BitVec.ofNat 8 body.length).toNat = body.length := by
    rw [BitVec.toNat_ofNat, Nat.mod_eq_of_lt h]
  simp [Receiver.message, hlen]

theorem byteStanding_stopBit {b : LineByte} (h : l.arrived = some b) (hb : b.stop = false) :
    byteStanding l n = [.linkStopBitError n] := by
  simp [byteStanding, h, hb]

theorem byteStanding_start {b : LineByte} (h : l.arrived = some b) (hb : b.stop = true) (hv : b.value = 0x7E)
    (hrx : l.rx = .hunting) : byteStanding l n = [.linkStartByte n] := by
  simp [byteStanding, h, hb, hv, hrx, standIf]

end Events

/-! ### The line and the receiver at a clock -/

section Clock

variable {l : Lane} {b : LineByte} {bs : List LineByte}

theorem clockLine_waits (h : 1 < b.wait) : clockLine (b :: bs) = { b with wait := b.wait - 1 } :: bs :=
  if_neg (Nat.not_le.2 h)

theorem clockLine_comes (h : b.wait ≤ 1) : clockLine (b :: bs) = bs := if_pos h

theorem arriving_waits (h : 1 < b.wait) : arriving (b :: bs) = none := if_neg (Nat.not_le.2 h)

theorem arriving_comes (h : b.wait ≤ 1) : arriving (b :: bs) = some b := if_pos h

theorem Lane.clockLink_none (l : Lane) : (l.clockLink none).rx = l.rx.clock ∧ (l.clockLink none).arrived = none :=
  ⟨rfl, rfl⟩

theorem Lane.clockLink_hunting (h : l.rx = .hunting) :
    (l.clockLink (some b)).rx = .hunting ∧ (l.clockLink (some b)).arrived = some b := by
  have hrx : l.rx.clock = .hunting := by rw [h]; rfl
  rw [Lane.clockLink, Lane.receive_hunting (by exact hrx)]
  exact ⟨hrx, rfl⟩

/-- A byte joins the frame when its stop bit is high and the gap before it, this clock counted, is within 20 µs
(R194). -/
theorem Lane.clockLink_taken {taken : List Byte} {gap : Nat} (h : l.rx = .inFrame taken gap) (hb : b.stop = true)
    (hgap : gap + 1 ≤ 1000) :
    (l.clockLink (some b)).rx = .inFrame (taken ++ [b.value]) 0 ∧ (l.clockLink (some b)).arrived = none := by
  have hrx : l.rx.clock = .inFrame taken (gap + 1) := by rw [h]; rfl
  rw [Lane.clockLink, Lane.receive_taken (by exact hrx) hb hgap]
  exact ⟨rfl, rfl⟩

theorem Lane.clockLink_refused {taken : List Byte} {gap : Nat} (h : l.rx = .inFrame taken gap)
    (hb : b.stop = false ∨ 1000 < gap + 1) :
    (l.clockLink (some b)).rx = .inFrame taken (gap + 1) ∧ (l.clockLink (some b)).arrived = some b := by
  have hrx : l.rx.clock = .inFrame taken (gap + 1) := by rw [h]; rfl
  rw [Lane.clockLink, Lane.receive_refused (by exact hrx) hb]
  exact ⟨hrx, rfl⟩

end Clock

/-- A clock moves each line by itself, on the tick and off it. -/
theorem advanceClock_line (s : State) (n : LaneId) :
    (advanceClock s).inputs.lines[n.val] = clockLine s.inputs.lines[n.val] := by
  have hmap : (clockLinks s).inputs.lines[n.val] = clockLine s.inputs.lines[n.val] := Vector.getElem_map ..
  rcases Nat.lt_or_ge (s.clock.sub + 1) 50 with h | h
  · rw [advanceClock_between h]; exact hmap
  · rw [← hmap, advanceClock_tick h, Inputs.tick_eq]

/-- A clock moves each link by the byte that comes on its line, on the tick and off it. -/
theorem advanceClock_link (s : State) (n : LaneId) :
    ((advanceClock s).work.lane n).rx = ((s.work.lane n).clockLink (arriving s.inputs.lines[n.val])).rx ∧
      ((advanceClock s).work.lane n).arrived =
        ((s.work.lane n).clockLink (arriving s.inputs.lines[n.val])).arrived ∧
      ((advanceClock s).work.lane n).sending = (s.work.lane n).sending.map (· - 1) := by
  rcases Nat.lt_or_ge (s.clock.sub + 1) 50 with h | h
  · rw [advanceClock_lane_between h]
    exact ⟨rfl, rfl, by rw [Lane.clockLink_eq]⟩
  · rw [advanceClock_lane_tick h]
    exact ⟨rfl, rfl, by rw [Lane.clockLink_eq]; rfl⟩

/-- Settles O48: each event's own effect on its lane, then the line and the receiver at a clock by whether a byte
comes. -/
theorem linkEventsMoveOneLink : Obligations.LinkEventsMoveOneLink := by
  intro s n l fault put
  refine ⟨exec_linkFrameDiscarded, exec_linkStopBitError, fun _ _ => exec_linkGapTimeout, exec_linkGapTimeout_idle,
    exec_linkStartByte_hunting, fun _ _ => exec_linkStartByte_inFrame, fun _ _ => exec_transmitMessage,
    exec_transmitEnd, fun _ => exec_transmitEnd_early, fun type body gap hlen hrx => ?message,
    fun b hb => ⟨fun hstop => ?stopBit, fun hstop hvalue hrx => ?start⟩,
    fun hp hs => ⟨advanceClock s, step_of_idle hp hs, ?clock⟩⟩
  case message => exact mem_standing_of_message (by rw [hrx]; exact Receiver.message_complete n type gap hlen)
  case stopBit =>
    exact mem_standing_of_byte (by rw [byteStanding_stopBit hb hstop]; exact List.mem_singleton_self _)
  case start =>
    exact mem_standing_of_byte (by rw [byteStanding_start hb hstop hvalue hrx]; exact List.mem_singleton_self _)
  case clock =>
    intro k line waits
    obtain ⟨hrx, harrived, hsending⟩ : k.rx = _ ∧ k.arrived = _ ∧ k.sending = _ := advanceClock_link s n
    have hline : line = clockLine s.inputs.lines[n.val] := advanceClock_line s n
    have hwaits : arriving s.inputs.lines[n.val] = none → waits := fun hnone => by
      obtain ⟨hclock, hnothing⟩ := l.clockLink_none
      rw [hnone] at hrx harrived
      exact ⟨harrived.trans hnothing, hrx.trans hclock⟩
    refine ⟨hsending, fun hempty => ?_, fun b rest hnext hwait => ?_, fun b rest hnext hwait => ?_⟩
    · rw [hempty] at hline hwaits
      exact ⟨hline, hwaits rfl⟩
    · rw [hnext] at hline hwaits
      exact ⟨hline.trans (clockLine_waits hwait), hwaits (arriving_waits hwait)⟩
    · rw [hnext, arriving_comes hwait] at hrx harrived
      rw [hnext, clockLine_comes hwait] at hline
      rw [hrx, harrived]
      exact ⟨hline, Lane.clockLink_hunting, fun taken gap hframe =>
        ⟨Lane.clockLink_taken hframe, Lane.clockLink_refused hframe⟩⟩

end Sys2Proof.Machine
end

section
/-! PROOFS, family 11_host_port_and_unit_links.md: refused and abandoned requests, and the bytes of HSDO; O50. -/

namespace Sys2Proof.Machine

/-! ### Requests that no block sees -/

theorem exec_unknownRequestType_unlisted (s : State) {type : Byte} (body : List Byte)
    (h : type.toNat = 0 ∨ 20 < type.toNat) :
    exec (.unknownRequestType type body) s = .next { s with work := s.work.reply 0xFF .format [] } := by
  have hlisted : ¬ requestListed type = true := by simp [requestListed]; omega
  change execUnknownRequestType type body s = _
  simp only [execUnknownRequestType, onWork_eq, if_neg hlisted]

theorem exec_unknownRequestType_listed (s : State) {type : Byte} (body : List Byte) (hlow : 1 ≤ type.toNat)
    (hhigh : type.toNat ≤ 20) :
    exec (.unknownRequestType type body) s = .next { s with work := s.work.reply type .format [] } := by
  have hlisted : requestListed type = true := by simp [requestListed]; omega
  change execUnknownRequestType type body s = _
  simp only [execUnknownRequestType, onWork_eq, if_pos hlisted]

theorem exec_hostRequestAbandoned (s : State) (received : List Byte) :
    exec (.hostRequestAbandoned received) s = .next s := rfl

/-! ### HSDO -/

theorem Port.hsdo_silent {p : Port} (h : p.reply = none) (start k : Nat) : p.hsdo start k = 0 := by
  rw [Port.hsdo, h]; rfl

theorem Port.hsdo_reply {p : Port} {r : Reply} (h : p.reply = some r) (start k : Nat) :
    p.hsdo start k = r.hsdo start k := by
  rw [Port.hsdo, h]

/-- The reply code follows the type echo (R192). -/
theorem Reply.hsdo_code (r : Reply) (start : Nat) : r.hsdo start (start + 1) = r.code.byte := r.hsdo_frame start 1

/-- The body of a reply stands behind its four bytes of header (R192). -/
theorem Reply.hsdo_body (r : Reply) (start : Nat) {i : Nat} {x : Byte} (h : r.body[i]? = some x) :
    r.hsdo start (start + 4 + i) = x := by
  rw [Nat.add_assoc, Reply.hsdo_frame, Reply.frame, List.getD_append_right _ _ _ _ (by simp [Bytes.of16])]
  simp [Bytes.of16, h]

/-- Settles O50: the port's own answers, and HSDO byte by byte from the frame of the reply. -/
theorem refusedRequestsChangeNothing : Obligations.RefusedRequestsChangeNothing := by
  refine fun s type bytes => ⟨exec_unknownRequestType_unlisted s bytes, exec_unknownRequestType_listed s bytes,
    exec_hostRequestAbandoned s bytes, fun p start => ⟨fun hnone => Port.hsdo_silent hnone start, fun r hr => ?_⟩⟩
  simp only [Port.hsdo_reply hr]
  refine ⟨fun k => r.hsdo_before, r.hsdo_frame start 0, ?code, ?length, fun i x => r.hsdo_body start,
    fun k hk => ?after⟩
  case code =>
    rw [r.hsdo_code]
    cases r.code <;> rfl
  case length =>
    rw [r.hsdo_frame start 2, r.hsdo_frame start 3]
    exact Bytes.u16_of16 _
  case after => exact r.hsdo_after (by rw [r.frame_length]; omega)

end Sys2Proof.Machine
end

section
/-! PROOFS, family 02_the_node_map.md: what one command does to the shift and the in-flight list; O9 and O12. -/

namespace Sys2Proof.Machine

/-! ### What an event does to the shift -/

/-- A CLOSE or OPEN frame is in shift (R42). -/
def Chain.shiftsFrame (c : Chain) : Prop := ∃ f ends, c.shift = some ⟨.frame f, ends⟩

/-- What an event may do to the shift and the in-flight list: a frame in shift was in shift before or begins under R47,
and the list grows only past its first entry as a frame leaves its shift (R48). -/
structure Work.Moves (e : Env) (w v : Work) : Prop where
  begun : ∀ f ends, v.chain.shift = some ⟨.frame f, ends⟩ → w.chain.shift = some ⟨.frame f, ends⟩ ∨ mayShift e w f
  inflight : v.chain.inflight.length ≤ w.chain.inflight.length ∨ v.chain.inflight.length ≤ 1 ∨
    (w.chain.shiftsFrame ∧ ¬ v.chain.shiftsFrame ∧ v.chain.inflight.length = w.chain.inflight.length + 1)

namespace Work.Moves

variable {e : Env} {w u v : Work}

theorem refl (e : Env) (w : Work) : w.Moves e w := ⟨fun _ _ h => .inl h, .inl (Nat.le_refl _)⟩

theorem of_chain (h : w.Moves e u) (hc : v.chain = u.chain) : w.Moves e v :=
  ⟨fun f ends hv => h.begun f ends (hc ▸ hv), by rw [hc]; exact h.inflight⟩

/-- An update that leaves the in-flight list and brings no frame into shift. -/
theorem still (h : w.Moves e u) (hi : v.chain.inflight = u.chain.inflight)
    (hs : ∀ f ends, v.chain.shift = some ⟨.frame f, ends⟩ → u.chain.shift = some ⟨.frame f, ends⟩) : w.Moves e v := by
  refine ⟨fun f ends hv => h.begun f ends (hs f ends hv), ?_⟩
  rw [hi]
  refine h.inflight.imp_right (Or.imp_right fun ⟨hw, hu, hlen⟩ => ⟨hw, ?_, hlen⟩)
  rintro ⟨f, ends, hv⟩
  exact hu ⟨f, ends, hs f ends hv⟩

/-- The part's shared operations abandon a shift at most. -/
theorem keeps (h : w.Moves e u) (k : u.Keeps v) : w.Moves e v := by
  refine h.still k.inflight fun f ends hv => ?_
  rcases k.shift with hsame | ⟨_, _, _, habandoned⟩
  · exact hsame ▸ hv
  · rw [habandoned] at hv; simp at hv

theorem of_keeps (k : w.Keeps v) : w.Moves e v := (refl e w).keeps k

theorem reply (h : w.Moves e v) (echo : Byte) (c : ReplyCode) (b : List Byte) : w.Moves e (v.reply echo c b) :=
  h.of_chain rfl

/-- With no frame in shift behind it, an event may leave one entry in flight. -/
theorem of_idle (hs : ¬ v.chain.shiftsFrame) (hi : v.chain.inflight.length ≤ 1) : w.Moves e v :=
  ⟨fun f ends hv => absurd ⟨f, ends, hv⟩ hs, .inr (.inl hi)⟩

theorem inflightFits (h : w.Moves e v) (hw : w.chain.inflightFits) : v.chain.inflightFits := by
  obtain ⟨hle, hshift⟩ := hw
  have hbegun : ∀ f ends, v.chain.shift = some ⟨.frame f, ends⟩ → w.chain.inflight.length < 32 := fun f ends hv =>
    (h.begun f ends hv).elim (hshift f ends) fun hmay => hmay.2.2.1
  rcases h.inflight with hlen | hlen | ⟨⟨f, ends, hw⟩, hv, hlen⟩
  · exact ⟨Nat.le_trans hlen hle, fun f ends hv => Nat.lt_of_le_of_lt hlen (hbegun f ends hv)⟩
  · exact ⟨Nat.le_trans hlen (by decide), fun _ _ _ => Nat.lt_of_le_of_lt hlen (by decide)⟩
  · have hlt := hshift f ends hw
    exact ⟨by rw [hlen]; exact hlt, fun f ends hf => absurd ⟨f, ends, hf⟩ hv⟩

end Work.Moves

/-! ### The relay chain engine -/

/-- The guard of FRAME_SHIFT_BEGIN is R47 with the two holds of R49 and R51 (log entry 16). -/
theorem canBeginShift_iff (e : Env) (w : Work) (f : Frame) :
    canBeginShift e w f = true ↔
      e.clock.sub = 0 ∧ mayShift e w f ∧ w.chain.holdOff = false ∧
        ∀ n b, f = .close n b → w.chain.closeHoldOff = false := by
  cases f with
  | close n b => simp [canBeginShift, and_assoc]; tauto
  | opn n => simp [canBeginShift, and_assoc]

section Chain

variable {e : Env} {w v : Work}

theorem length_insertInflight (o : Operation) (t : Time) (ls : List (Operation × Time)) :
    (insertInflight o t ls).length = ls.length + 1 := by
  obtain ⟨pre, post, hparted, hinsert⟩ := insertInflight_parted o t ls
  rw [hinsert, hparted.parts]
  simp only [List.length_append, List.length_cons]
  omega

theorem Work.endFrameShift_moves {f : Frame} {ends : Time} (h : w.chain.shift = some ⟨.frame f, ends⟩) :
    w.Moves e (w.endFrameShift e f) := by
  have hchain : (w.endFrameShift e f).chain.shift = none ∧
      (w.endFrameShift e f).chain.inflight = insertInflight (e.inflightOf f).1 (e.inflightOf f).2 w.chain.inflight := by
    simp only [Work.endFrameShift]; rw [Work.frameShifted_eq]; exact ⟨rfl, rfl⟩
  have hnone : ¬ (w.endFrameShift e f).chain.shiftsFrame := by
    rintro ⟨g, t, hg⟩; rw [hchain.1] at hg; cases hg
  exact ⟨fun g t hg => absurd ⟨g, t, hg⟩ hnone,
    .inr (.inr ⟨⟨f, ends, h⟩, hnone, by rw [hchain.2, length_insertInflight]⟩)⟩

theorem Work.Moves.setState (h : w.Moves e v) (c : ChainState) :
    w.Moves e { v with chain := { v.chain with state := c } } := h.still rfl fun _ _ => id

theorem Work.Moves.chainFault (h : w.Moves e v) (d : Env) : w.Moves e (v.chainFault d) := by
  unfold Work.chainFault; dsimp only
  exact ((h.setState .fault).keeps (Keeping.requestUnchecked _)).keeps (Keeping.safetyAbort _ d .chainFault)

theorem Work.Moves.answerReset (h : w.Moves e v) (c : ReplyCode) : w.Moves e (v.answerReset c) :=
  h.of_chain (by rw [Work.answerReset_eq])

theorem Work.Moves.judgeOpenAll (h : w.Moves e v) (d : Env) (k : OpenAllKind) (good : Bool) :
    w.Moves e (v.judgeOpenAll d k good) := by
  unfold Work.judgeOpenAll; split
  · exact h
  · split
    · exact h.chainFault d
    · exact h
  all_goals
    split
    · exact (h.setState _).answerReset _
    · exact ((h.setState _).keeps (Keeping.safetyAbort _ d _)).answerReset _

theorem Work.endOpenAllShift_moves (w : Work) (e d : Env) : w.Moves e (w.endOpenAllShift d) :=
  .of_idle (by rintro ⟨_, _, h⟩; cases h) (Nat.le_refl 1)

theorem Work.popInflight_moves (w : Work) (e : Env) : w.Moves e w.popInflight :=
  ⟨fun _ _ h => .inl h, .inl (by simp [Work.popInflight])⟩

theorem Work.Moves.closeOntoTarget (h : w.Moves e v) (n : Nat) : w.Moves e (v.closeOntoTarget n) := by
  unfold Work.closeOntoTarget; split
  · exact h.keeps (Keeping.queueTarget _ _ _)
  · exact h

theorem Work.Moves.closeOntoTargets (h : w.Moves e v) (ns : List Nat) :
    w.Moves e (ns.foldl Work.closeOntoTarget v) := by
  induction ns generalizing v with
  | nil => exact h
  | cons n ns ih => exact ih (h.closeOntoTarget n)

theorem Work.abandonClose_keeps (w : Work) : w.Keeps w.abandonClose := by
  refine Keeping.of_chain rfl (fun _ => rfl) rfl rfl rfl id ?_
  rcases hs : w.chain.shift with _ | ⟨kind, ends⟩
  · exact .inl (by simp [Work.abandonClose, hs])
  · match kind with
    | .frame (.close n b) => exact .inr ⟨_, ends, rfl, by simp [Work.abandonClose, hs]⟩
    | .frame (.opn n) | .abandoned | .openAll k => exact .inl (by simp [Work.abandonClose, hs])

end Chain

end Sys2Proof.Machine
end

section
/-! PROOFS, family 02_the_node_map.md: the shift and the in-flight list over every command and idle clock;
O9 and O12. -/

namespace Sys2Proof.Machine

section Commands

variable {s t : State}

theorem moves_of_onWork {f : Work → Work} (h : onWork s f = .next t) (hf : s.work.Moves s.env (f s.work)) :
    s.work.Moves s.env t.work := by
  obtain rfl := Host.Outcome.next.inj h
  exact hf

/-- The same for a command that has written the inputs first. -/
theorem moves_of_inputs {inputs : Inputs} {f : Work → Work} (h : onWork { s with inputs } f = .next t)
    (hf : s.work.Moves s.env (f s.work)) : s.work.Moves s.env t.work := by
  obtain rfl := Host.Outcome.next.inj h
  exact hf

theorem moves_of_chain (h : t.work.chain = s.work.chain) : s.work.Moves s.env t.work := (Work.Moves.refl _ _).of_chain h

theorem chain_of_onWork {f : Work → Work} (h : onWork s f = .next t) (hf : (f s.work).chain = s.work.chain) :
    t.work.chain = s.work.chain := by
  obtain rfl := Host.Outcome.next.inj h
  exact hf

/-! ### Commands that leave the chain -/

theorem execConfigLane_chain {lane en fa ta : Byte} {gain : BitVec 16} {offset : BitVec 24} {linger : BitVec 16}
    {low mode : Byte} (h : execConfigLane lane en fa ta gain offset linger low mode s = .next t) :
    t.work.chain = s.work.chain := by
  unfold execConfigLane at h
  dsimp only at h
  split at h
  · split at h
    · obtain rfl := Host.Outcome.next.inj h
      dsimp only [Work.reply_chain]
      split <;> rfl
    · exact chain_of_onWork h rfl
  · exact chain_of_onWork h rfl

theorem execLoadRegion_chain {a : Byte} {b c d : BitVec 16} (h : execLoadRegion a b c d s = .next t) :
    t.work.chain = s.work.chain := by
  unfold execLoadRegion at h
  split at h
  · exact chain_of_onWork h rfl
  · split at h <;> obtain rfl := Host.Outcome.next.inj h <;> rfl

theorem execFixtureConfig_chain {a b c : BitVec 16} (h : execFixtureConfig a b c s = .next t) :
    t.work.chain = s.work.chain := by
  unfold execFixtureConfig at h
  split at h
  · exact chain_of_onWork h rfl
  · split at h <;> obtain rfl := Host.Outcome.next.inj h <;> rfl

theorem execSetMask_chain {a : Byte} (h : execSetMask a s = .next t) : t.work.chain = s.work.chain := by
  unfold execSetMask at h
  split at h <;> obtain rfl := Host.Outcome.next.inj h <;> rfl

theorem execReadLane_chain {a : Byte} (h : execReadLane a s = .next t) : t.work.chain = s.work.chain := by
  refine chain_of_onWork h ?_
  split <;> rfl

theorem execReadRegion_chain {a : Byte} (h : execReadRegion a s = .next t) : t.work.chain = s.work.chain := by
  refine chain_of_onWork h ?_
  split <;> rfl

theorem execReadNode_chain {a : BitVec 16} (h : execReadNode a s = .next t) : t.work.chain = s.work.chain := by
  refine chain_of_onWork h ?_
  split <;> rfl

theorem execPostStep_chain {a : Byte} {r : List Byte} (h : execPostStep a r s = .next t) :
    t.work.chain = s.work.chain := by
  refine chain_of_onWork h ?_
  split
  · split <;> rfl
  · rfl

theorem execAckNotice_chain (h : execAckNotice s = .next t) : t.work.chain = s.work.chain := by
  refine chain_of_onWork h ?_
  split <;> rfl

theorem execTokenClear_chain {a b : Byte} (h : execTokenClear a b s = .next t) : t.work.chain = s.work.chain := by
  refine chain_of_onWork h ?_
  split <;> rfl

theorem execTokenRead_chain {a b : Byte} (h : execTokenRead a b s = .next t) : t.work.chain = s.work.chain := by
  refine chain_of_onWork h ?_
  split <;> rfl

theorem execLineWrite_chain {a : Byte} (h : execLineWrite a s = .next t) : t.work.chain = s.work.chain := by
  obtain ⟨v, hexec, hframe, -⟩ := exec_lineWrite s a
  obtain rfl := Host.Outcome.next.inj (hexec.symm.trans h)
  rw [hframe]; rfl

/-! ### Tokens, nodes and results -/

theorem execTakeResults_moves {a : Byte} (h : execTakeResults a s = .next t) : s.work.Moves s.env t.work := by
  have hleft : s.work.Moves s.env { s.work with results := s.work.results.drop a.toNat } :=
    (Work.Moves.refl _ _).of_chain rfl
  refine moves_of_onWork h ?_
  split
  · exact (Work.Moves.refl _ _).reply _ _ _
  · refine Work.Moves.reply (Work.Moves.keeps ?_ (Keeping.finish _ s.env)) _ _ _
    split
    · exact hleft
    · exact hleft.keeps (Keeping.handOut _ _)

theorem execTokenPost_moves {a b : Byte} (h : execTokenPost a b s = .next t) : s.work.Moves s.env t.work := by
  refine moves_of_onWork h ?_
  split
  · exact (Work.Moves.refl _ _).reply _ _ _
  · split
    · exact (Work.Moves.refl _ _).reply _ _ _
    · exact (Work.Moves.of_keeps (Keeping.trans (Keeping.postToken _ _ _) (Keeping.finish _ _))).reply _ _ _

theorem execSetNode_moves {a : BitVec 16} {b : Byte} (h : execSetNode a b s = .next t) : s.work.Moves s.env t.work := by
  refine moves_of_onWork h ?_
  split
  · exact (Work.Moves.refl _ _).reply _ _ _
  · split
    · exact (Work.Moves.refl _ _).reply _ _ _
    · split
      · exact (Work.Moves.refl _ _).reply _ _ _
      · exact (Work.Moves.of_keeps (Keeping.trans (Keeping.holdNode _ _ _) (Keeping.finish _ _))).reply _ _ _

theorem execFreeNode_moves {a : BitVec 16} (h : execFreeNode a s = .next t) : s.work.Moves s.env t.work := by
  refine moves_of_onWork h ?_
  split
  · exact (Work.Moves.refl _ _).reply _ _ _
  · split
    · exact (Work.Moves.refl _ _).reply _ _ _
    · exact (Work.Moves.refl _ _).reply _ _ _
    · exact (Work.Moves.of_keeps (Keeping.trans (Keeping.releaseNode _ _ _) (Keeping.finish _ _))).reply _ _ _

theorem execLingerExpiry_moves (h : execLingerExpiry s = .next t) : s.work.Moves s.env t.work := by
  refine moves_of_onWork h ?_
  split
  · refine Work.Moves.keeps (Work.Moves.keeps ?_ (Keeping.setDue _ _)) (Keeping.serveSlots _)
    exact (Work.Moves.refl _ _).of_chain rfl
  · exact Work.Moves.refl _ _

/-! ### The relay chain engine -/

theorem execChainReset_moves (h : execChainReset s = .next t) : s.work.Moves s.env t.work := by
  refine moves_of_onWork h ?_
  split
  · exact (Work.Moves.refl _ _).reply _ _ _
  · exact (Work.Moves.refl _ _).of_chain rfl
  · exact (Work.Moves.of_keeps (Keeping.requestReset _)).of_chain rfl

/-- The one place where a frame comes into shift. -/
theorem execFrameShiftBegin_moves (h : execFrameShiftBegin s = .next t) : s.work.Moves s.env t.work := by
  refine moves_of_onWork h ?_
  split
  · next f _ _ =>
    split
    · next hcan =>
      obtain ⟨-, hmay, -⟩ := (canBeginShift_iff _ _ _).1 hcan
      refine ⟨fun g ends hg => .inr ?_, .inl (Nat.le_refl _)⟩
      obtain ⟨rfl, -⟩ : f = g ∧ s.env.shiftEnd = ends := by simpa using hg
      exact hmay
    · exact Work.Moves.refl _ _
  · exact Work.Moves.refl _ _

theorem execFrameShiftEnd_moves {a : BitVec 32} (h : execFrameShiftEnd a s = .next t) : s.work.Moves s.env t.work := by
  refine moves_of_onWork h ?_
  split
  · next hshift =>
    split
    · refine Work.Moves.keeps ?_ (Keeping.finish _ s.env)
      split
      · exact (Work.endFrameShift_moves hshift).chainFault _
      · exact Work.endFrameShift_moves hshift
    · exact Work.Moves.refl _ _
  · exact Work.Moves.refl _ _

theorem execShiftAbandonedEnd_moves (h : execShiftAbandonedEnd s = .next t) : s.work.Moves s.env t.work := by
  refine moves_of_onWork h ?_
  split
  · split
    · have hended : s.work.Moves s.env { s.work with chain := { s.work.chain with shift := none } } :=
        (Work.Moves.refl _ _).still rfl fun _ _ hf => nomatch hf
      exact hended.keeps (Keeping.finishQuiet _ s.env)
    · exact Work.Moves.refl _ _
  · exact Work.Moves.refl _ _

theorem execOpenAllShiftBegin_moves (h : execOpenAllShiftBegin s = .next t) : s.work.Moves s.env t.work := by
  refine moves_of_onWork h ?_
  split
  · split
    · exact (Work.Moves.refl _ _).still rfl fun f ends hf => nomatch hf
    · exact Work.Moves.refl _ _
  · exact Work.Moves.refl _ _

theorem execOpenAllShiftEnd_moves {a : BitVec 32} (h : execOpenAllShiftEnd a s = .next t) :
    s.work.Moves s.env t.work := by
  refine moves_of_onWork h ?_
  split
  · split
    · exact ((Work.endOpenAllShift_moves _ _ _).judgeOpenAll _ _ _).keeps (Keeping.finish _ _)
    · exact Work.Moves.refl _ _
  · exact Work.Moves.refl _ _

theorem execCloseComplete_moves (h : execCloseComplete s = .next t) : s.work.Moves s.env t.work := by
  refine moves_of_onWork h ?_
  split
  · next n _ =>
    refine Work.Moves.keeps ?_ (Keeping.finishQuiet _ s.env)
    have hclosed : s.work.Moves s.env (if (s.work.popInflight.node n).phase = .closing then
        s.work.popInflight.setNode n { s.work.popInflight.node n with phase := .closed } else s.work.popInflight) := by
      split
      · exact (Work.popInflight_moves _ _).of_chain rfl
      · exact Work.popInflight_moves _ _
    split
    · exact hclosed.keeps (Keeping.checkSwitch _ _ _)
    · exact hclosed
  · exact Work.Moves.refl _ _

theorem execReleaseComplete_moves (h : execReleaseComplete s = .next t) : s.work.Moves s.env t.work := by
  refine moves_of_onWork h ?_
  split
  · refine Work.Moves.keeps ?_ (Keeping.finishQuiet _ s.env)
    split
    · exact ((Work.popInflight_moves s.work s.env).keeps (Keeping.setNode _ _ _)).closeOntoTarget _
    · exact Work.popInflight_moves _ _
  · exact Work.Moves.refl _ _

theorem execOpenAllComplete_moves (h : execOpenAllComplete s = .next t) : s.work.Moves s.env t.work := by
  refine moves_of_onWork h ?_
  split
  · refine Work.Moves.keeps (Work.Moves.closeOntoTargets ?_ _) (Keeping.finishQuiet _ s.env)
    exact (Work.popInflight_moves _ _).keeps (Keeping.onNodes _ _)
  · exact Work.Moves.refl _ _

/-! ### Lanes -/

theorem execCancelLane_moves {a : Byte} (h : execCancelLane a s = .next t) : s.work.Moves s.env t.work := by
  refine moves_of_onWork h ?_
  split
  · exact (Work.Moves.of_keeps (Keeping.trans (Keeping.cancelLane _ _ _) (Keeping.finish _ _))).reply _ _ _
  · exact (Work.Moves.refl _ _).reply _ _ _

theorem execGo_moves {a : Byte} (h : execGo a s = .next t) : s.work.Moves s.env t.work := by
  refine moves_of_onWork h ?_
  split
  · exact (Work.Moves.refl _ _).reply _ _ _
  · split
    · exact (Work.Moves.refl _ _).reply _ _ _
    · exact (Work.Moves.of_keeps (Keeping.trans (Keeping.foldl _ (fun w n => Keeping.goLane w _ n) _ _)
        (Keeping.finish _ _))).reply _ _ _

theorem execPause_moves {a : Byte} (h : execPause a s = .next t) : s.work.Moves s.env t.work := by
  refine moves_of_onWork h ?_
  split
  · exact (Work.Moves.refl _ _).reply _ _ _
  · exact (Work.Moves.of_keeps (Keeping.trans (Keeping.foldl _ (fun w n => Keeping.pauseLane w n) _ _)
      (Keeping.finish _ _))).reply _ _ _

theorem execAdmission_moves {n : LaneId} (h : execAdmission n s = .next t) : s.work.Moves s.env t.work := by
  refine moves_of_onWork h ?_
  split
  · exact .of_keeps (Keeping.trans (Keeping.admitHead _ _ _) (Keeping.finish _ _))
  · exact Work.Moves.refl _ _

theorem execFixedSettleExpiry_moves {n : LaneId} (h : execFixedSettleExpiry n s = .next t) :
    s.work.Moves s.env t.work := by
  refine moves_of_onWork h ?_
  split
  · split
    · exact .of_keeps (Keeping.trans (Keeping.onLane _ n (fun l => { l with c0 := l.c0.expire }) rfl)
        (Keeping.trans (Keeping.endSettle _ _ _ _ _ _) (Keeping.finish _ _)))
    · exact Work.Moves.refl _ _
  · exact Work.Moves.refl _ _

theorem execAdaptiveSettleEnd_moves {n : LaneId} (h : execAdaptiveSettleEnd n s = .next t) :
    s.work.Moves s.env t.work := by
  refine moves_of_onWork h ?_
  split
  · dsimp only; split
    · split
      · exact .of_keeps (Keeping.trans (Keeping.onLane _ n (fun l => { l with c0 := (s.work.lane n).c0.stop }) rfl)
          (Keeping.trans (Keeping.endSettle _ _ _ _ _ _) (Keeping.finish _ _)))
      · exact .of_keeps (Keeping.onLane _ _ _ rfl)
    · exact Work.Moves.refl _ _
  · exact Work.Moves.refl _ _

theorem execSourceDelayExpiry_moves {n : LaneId} (h : execSourceDelayExpiry n s = .next t) :
    s.work.Moves s.env t.work := by
  refine moves_of_onWork h ?_
  split
  · split
    · exact .of_keeps (Keeping.trans (Keeping.startEach _ _ (fun l => { l with c1 := l.c1.expire }) fun _ => rfl)
        (Keeping.trans (Keeping.endSourceDelay _ _ _ _) (Keeping.finish _ _)))
    · exact Work.Moves.refl _ _
  · exact Work.Moves.refl _ _

theorem execGateExpiry_moves {n : LaneId} (h : execGateExpiry n s = .next t) : s.work.Moves s.env t.work := by
  refine moves_of_onWork h ?_
  split
  · split
    · exact .of_keeps (Keeping.trans (Keeping.startEach _ _ (fun l => { l with c2 := l.c2.expire }) fun _ => rfl)
        (Keeping.trans (Keeping.endGate _ _ _ _) (Keeping.finish _ _)))
    · exact Work.Moves.refl _ _
  · exact Work.Moves.refl _ _

theorem execTokenTimeout_moves {n : LaneId} (h : execTokenTimeout n s = .next t) : s.work.Moves s.env t.work := by
  refine moves_of_onWork h ?_
  split
  · split
    · exact .of_keeps (Keeping.trans (Keeping.onLane _ n (fun l => { l with c3 := l.c3.expire }) rfl)
        (Keeping.trans (Keeping.enterDeliver _ _ _ _ _) (Keeping.finish _ _)))
    · exact Work.Moves.refl _ _
  · exact Work.Moves.refl _ _

theorem execTimeout_moves {n : LaneId} (h : execTimeout n s = .next t) : s.work.Moves s.env t.work := by
  refine moves_of_onWork h ?_
  split
  · split
    · exact .of_keeps (Keeping.trans (Keeping.onLane _ n (fun l => { l with c3 := l.c3.expire }) rfl)
        (Keeping.trans (Keeping.sendAll _ _ _) (Keeping.trans (Keeping.stopStep _ _ _)
          (Keeping.trans (Keeping.complete _ _ _ _ _) (Keeping.finish _ _)))))
    · exact Work.Moves.refl _ _
  · exact Work.Moves.refl _ _

/-! ### Safety triggers and CLEAR -/

theorem execAbortAll_moves (h : execAbortAll s = .next t) : s.work.Moves s.env t.work :=
  moves_of_onWork h ((Work.Moves.of_keeps (Keeping.trans (Keeping.safetyAbort _ _ _) (Keeping.finish _ _))).reply _ _ _)

theorem execSeatingChangeUnseated_moves (h : execSeatingChangeUnseated s = .next t) : s.work.Moves s.env t.work := by
  unfold execSeatingChangeUnseated at h
  split at h
  · exact moves_of_inputs h (.of_keeps (Keeping.trans (Work.abandonClose_keeps _)
      (Keeping.trans (Keeping.safetyAbort _ _ _) (Keeping.finish _ _))))
  · obtain rfl := Host.Outcome.next.inj h; exact Work.Moves.refl _ _

theorem execSeatingChangeSeated_moves (h : execSeatingChangeSeated s = .next t) : s.work.Moves s.env t.work := by
  unfold execSeatingChangeSeated at h
  split at h
  · obtain rfl := Host.Outcome.next.inj h; exact Work.Moves.refl _ _
  · exact moves_of_inputs h ((Work.Moves.refl _ _).still rfl fun _ _ => id)

theorem execAbortNEdge_moves (h : execAbortNEdge s = .next t) : s.work.Moves s.env t.work := by
  unfold execAbortNEdge at h
  split at h
  · exact moves_of_inputs h (.of_keeps (Keeping.trans (Keeping.safetyAbort _ _ _) (Keeping.finish _ _)))
  · obtain rfl := Host.Outcome.next.inj h; exact Work.Moves.refl _ _

/-- CLEAR abandons the shift of a CLOSE at most (R203). -/
theorem Work.Moves.clearFixture {e : Env} {w v : Work} (h : w.Moves e v) : w.Moves e v.clearFixture := by
  have hclaims : w.Moves e v.clearClaims := h.still rfl fun _ _ => id
  by_cases hr : v.chain.state = .ready
  · rw [Work.clearFixture_ready hr]
    exact hclaims.keeps (Keeping.requestOpenAll _)
  · rw [Work.clearFixture_other hr]
    exact (hclaims.keeps v.clearClaims.abandonClose_keeps).still rfl fun _ _ => id

theorem execClear_moves (h : execClear s = .next t) : s.work.Moves s.env t.work := by
  obtain rfl := Host.Outcome.next.inj ((exec_clear s).symm.trans h)
  have hlanes : s.work.Moves s.env (allLanes.foldl Work.clearLane s.work) :=
    (Work.Moves.refl _ _).of_chain s.work.clearLanes_nodes_chain.2
  exact hlanes.clearFixture.of_chain (by rw [Work.reply_chain, Work.clearedWork])

/-! ### Unit messages and links -/

theorem execPost_moves {n : LaneId} {r : List Byte} (h : execPost n r s = .next t) : s.work.Moves s.env t.work := by
  have hhunt := Work.Moves.of_keeps (e := s.env) (Keeping.hunt s.work n)
  refine moves_of_onWork h ?_
  split
  · exact .of_keeps (Keeping.discardFrame _ _)
  · dsimp only; split
    · exact hhunt.keeps (Keeping.send _ _ _)
    · split
      · exact hhunt.keeps (Keeping.trans (Keeping.append _ _ _) (Keeping.send _ _ _))
      · exact hhunt.keeps (Keeping.send _ _ _)

theorem execUnitCancelLane_moves {n : LaneId} (h : execUnitCancelLane n s = .next t) : s.work.Moves s.env t.work :=
  moves_of_onWork h (.of_keeps (Keeping.trans (Keeping.hunt _ _)
    (Keeping.trans (Keeping.cancelLane _ _ _) (Keeping.finish _ _))))

theorem execUnitPause_moves {n : LaneId} (h : execUnitPause n s = .next t) : s.work.Moves s.env t.work :=
  moves_of_onWork h (.of_keeps (Keeping.trans (Keeping.hunt _ _)
    (Keeping.trans (Keeping.pauseLane _ _) (Keeping.finish _ _))))

theorem execReady_moves {n : LaneId} {a : BitVec 16} {b : Byte} (h : execReady n a b s = .next t) :
    s.work.Moves s.env t.work :=
  moves_of_onWork h (.of_keeps (Keeping.trans (Keeping.hunt _ _)
    (Keeping.trans (Keeping.takeReady _ _ _ _ _) (Keeping.finish _ _))))

theorem execUnitGo_moves {n : LaneId} (h : execUnitGo n s = .next t) : s.work.Moves s.env t.work := by
  have hhunt := Work.Moves.of_keeps (e := s.env) (Keeping.hunt s.work n)
  refine moves_of_onWork h ?_
  dsimp only; split
  · exact hhunt.keeps (Keeping.send _ _ _)
  · exact hhunt.keeps (Keeping.trans (Keeping.send _ _ _) (Keeping.trans (Keeping.goLane _ _ _) (Keeping.finish _ _)))

theorem execResult_moves {n : LaneId} {a : BitVec 16} {b : Byte} {r : BitVec 24} {f : Byte}
    (h : execResult n a b r f s = .next t) : s.work.Moves s.env t.work := by
  refine moves_of_onWork h ?_
  split
  · exact .of_keeps (Keeping.discardFrame _ _)
  · exact .of_keeps (Keeping.trans (Keeping.hunt _ _) (Keeping.trans (Keeping.takeResult _ _ _ _ _ _) (Keeping.finish _ _)))

theorem execUnitToken_moves {n : LaneId} {a b : Byte} (h : execUnitToken n a b s = .next t) :
    s.work.Moves s.env t.work := by
  have hhunt := Work.Moves.of_keeps (e := s.env) (Keeping.hunt s.work n)
  refine moves_of_onWork h ?_
  dsimp only; split
  · exact hhunt.keeps (Keeping.send _ _ _)
  · split
    · exact hhunt.keeps (Keeping.send _ _ _)
    · exact hhunt.keeps (Keeping.trans (Keeping.send _ _ _)
        (Keeping.trans (Keeping.postToken _ _ _) (Keeping.finish _ _)))

theorem execLinkGapTimeout_moves {n : LaneId} (h : execLinkGapTimeout n s = .next t) : s.work.Moves s.env t.work := by
  refine moves_of_onWork h ?_
  split
  · exact .of_keeps (Keeping.discardFrame _ _)
  · exact Work.Moves.refl _ _

/-! ### Every command -/

theorem exec_moves {i : Instr} (h : exec i s = .next t) : s.work.Moves s.env t.work := by
  cases i with
  | hardReset =>
    obtain rfl := Host.Outcome.next.inj h
    exact .of_idle (by rintro ⟨_, _, hf⟩; cases hf) (Nat.zero_le 1)
  | hostRequestAbandoned b => obtain rfl := Host.Outcome.next.inj h; exact Work.Moves.refl _ _
  | abortNRise => obtain rfl := Host.Outcome.next.inj h; exact Work.Moves.refl _ _
  | stableChange n b => obtain rfl := Host.Outcome.next.inj h; exact Work.Moves.refl _ _
  | unknownRequestType type body => obtain rfl := Host.Outcome.next.inj h; exact (Work.Moves.refl _ _).reply _ _ _
  | linkFrameDiscarded n type body =>
    obtain rfl := Host.Outcome.next.inj h; exact .of_keeps (Keeping.discardFrame _ _)
  | linkStopBitError n => obtain rfl := Host.Outcome.next.inj h; exact (Work.Moves.refl _ _).of_chain rfl
  | linkStartByte n => obtain rfl := Host.Outcome.next.inj h; exact (Work.Moves.refl _ _).of_chain rfl
  | transmitMessage n => obtain rfl := Host.Outcome.next.inj h; exact (Work.Moves.refl _ _).of_chain rfl
  | transmitEnd n => obtain rfl := Host.Outcome.next.inj h; exact (Work.Moves.refl _ _).of_chain rfl
  | unitCancelLane n => exact execUnitCancelLane_moves h
  | unitPause n => exact execUnitPause_moves h
  | ready n tag attempt => exact execReady_moves h
  | configLane => exact moves_of_chain (execConfigLane_chain h)
  | loadRegion => exact moves_of_chain (execLoadRegion_chain h)
  | fixtureConfig => exact moves_of_chain (execFixtureConfig_chain h)
  | setMask => exact moves_of_chain (execSetMask_chain h)
  | readLane => exact moves_of_chain (execReadLane_chain h)
  | readRegion => exact moves_of_chain (execReadRegion_chain h)
  | readNode => exact moves_of_chain (execReadNode_chain h)
  | postStep => exact moves_of_chain (execPostStep_chain h)
  | ackNotice => exact moves_of_chain (execAckNotice_chain h)
  | tokenClear token code => exact moves_of_chain (execTokenClear_chain (b := code) h)
  | tokenRead token code => exact moves_of_chain (execTokenRead_chain (b := code) h)
  | lineWrite => exact moves_of_chain (execLineWrite_chain h)
  | takeResults => exact execTakeResults_moves h
  | tokenPost => exact execTokenPost_moves h
  | setNode => exact execSetNode_moves h
  | freeNode => exact execFreeNode_moves h
  | lingerExpiry => exact execLingerExpiry_moves h
  | chainReset => exact execChainReset_moves h
  | frameShiftBegin => exact execFrameShiftBegin_moves h
  | frameShiftEnd => exact execFrameShiftEnd_moves h
  | shiftAbandonedEnd => exact execShiftAbandonedEnd_moves h
  | openAllShiftBegin => exact execOpenAllShiftBegin_moves h
  | openAllShiftEnd => exact execOpenAllShiftEnd_moves h
  | closeComplete => exact execCloseComplete_moves h
  | releaseComplete => exact execReleaseComplete_moves h
  | openAllComplete => exact execOpenAllComplete_moves h
  | cancelLane => exact execCancelLane_moves h
  | go => exact execGo_moves h
  | pause => exact execPause_moves h
  | admission => exact execAdmission_moves h
  | fixedSettleExpiry => exact execFixedSettleExpiry_moves h
  | adaptiveSettleEnd => exact execAdaptiveSettleEnd_moves h
  | sourceDelayExpiry => exact execSourceDelayExpiry_moves h
  | gateExpiry => exact execGateExpiry_moves h
  | tokenTimeout => exact execTokenTimeout_moves h
  | timeout => exact execTimeout_moves h
  | abortAll => exact execAbortAll_moves h
  | clear => exact execClear_moves h
  | seatingChangeUnseated => exact execSeatingChangeUnseated_moves h
  | seatingChangeSeated => exact execSeatingChangeSeated_moves h
  | abortNEdge => exact execAbortNEdge_moves h
  | post => exact execPost_moves h
  | unitGo => exact execUnitGo_moves h
  | result => exact execResult_moves h
  | unitToken => exact execUnitToken_moves h
  | linkGapTimeout => exact execLinkGapTimeout_moves h

/-- A clock leaves the shift and the in-flight list. -/
theorem advanceClock_moves (s : State) : s.work.Moves s.env (advanceClock s).work := by
  have hkept : (advanceClock s).work.chain.inflight = s.work.chain.inflight ∧
      (advanceClock s).work.chain.shift = s.work.chain.shift := by
    by_cases h : s.clock.sub + 1 < 50
    · rw [advanceClock_between h]; exact ⟨rfl, rfl⟩
    · rw [advanceClock_tick (Nat.le_of_not_lt h)]; exact ⟨rfl, rfl⟩
  exact (Work.Moves.refl _ _).still hkept.1 fun _ _ hf => hkept.2 ▸ hf

theorem step_moves (h : step s = .next t) : s.work.Moves s.env t.work := by
  unfold step at h
  split at h
  · next c rest _ => exact exec_moves (s := { s with pending := rest }) h
  · obtain rfl := Host.Outcome.next.inj h
    unfold idle; split
    · exact advanceClock_moves s
    · exact Work.Moves.refl _ _

end Commands

/-- Settles O9: the list grows only as a frame leaves its shift, for which the frame's own begin kept a place. -/
theorem everyStepKeepsInflightWithin32 : Obligations.EveryStepKeepsInflightWithin32 :=
  fun _ _ hfits h => (step_moves h).inflightFits hfits

/-- Settles O12: only FRAME_SHIFT_BEGIN brings a frame into shift, under its guard. -/
theorem framesShiftOnlyWhenAllowed : Obligations.FramesShiftOnlyWhenAllowed :=
  fun _ _ f ends h => (step_moves h).begun f ends

end Sys2Proof.Machine
end

section
/-! PROOFS, family 02_the_node_map.md: the begin of a frame's shift, the end of an abandoned one and
CHAIN_RESET; O32 and O37. And the filtered levels; O49. -/

namespace Sys2Proof.Machine

section Chain

variable {s : State}

/-! ### Shifts -/

theorem exec_frameShiftBegin {f : Frame} {rest : List Frame} (hq : s.work.chain.queue = f :: rest) :
    exec .frameShiftBegin s = .next
      { s with
        work :=
          if canBeginShift s.env s.work f then
            { s.work with chain := { s.work.chain with shift := some ⟨.frame f, s.clock.time + 2⟩ } }
          else s.work } := by
  change execFrameShiftBegin s = _
  simp only [execFrameShiftBegin, onWork_eq, hq]
  rfl

theorem exec_frameShiftBegin_empty (hq : s.work.chain.queue = []) : exec .frameShiftBegin s = .next s := by
  change execFrameShiftBegin s = _
  simp only [execFrameShiftBegin, onWork_eq, hq]

/-- The chain with its shift at an end. -/
def Work.shiftFreed (w : Work) : Work := { w with chain := { w.chain with shift := none } }

theorem exec_shiftAbandonedEnd {ends : Time} (hs : s.work.chain.shift = some ⟨.abandoned, ends⟩)
    (ht : reached ends s.clock.time = true) :
    exec .shiftAbandonedEnd s = .next { s with work := s.work.shiftFreed.finishQuiet s.env } := by
  change execShiftAbandonedEnd s = _
  simp only [execShiftAbandonedEnd, onWork_eq, hs, Env.now, State.env, ht, if_true]
  rfl

/-- With no trigger left over, the end of an event reports quiet alone (R51). -/
theorem Work.finishQuiet_rested {w : Work} (h : w.wake = false) (e : Env) :
    w.finishQuiet e = (w.reportQuiet e).finish e := by
  rw [Work.finishQuiet, Work.finish_rested h]

/-- Settles O32: R47's conditions are the guard, and a rested part with no quiet hold has nobody to tell. -/
theorem framesBeginAndAbandonedShiftsEnd : Obligations.FramesBeginAndAbandonedShiftsEnd := by
  refine fun s => ⟨fun f rest hq hsub hmay hhold hclose => ?begins, fun hhold => ?waits,
    fun ends hs ht hrest hholds => ?ends⟩
  case begins =>
    rw [exec_frameShiftBegin hq, if_pos ((canBeginShift_iff _ _ _).2 ⟨hsub, hmay, hhold, hclose⟩)]
  case waits =>
    rcases hq : s.work.chain.queue with _ | ⟨f, rest⟩
    · exact exec_frameShiftBegin_empty hq
    · have hcan : ¬ canBeginShift s.env s.work f = true := fun h => by
        obtain ⟨-, -, hoff, -⟩ := (canBeginShift_iff _ _ _).1 h
        simp [hhold] at hoff
      rw [exec_frameShiftBegin hq, if_neg hcan]
  case ends =>
    rw [exec_shiftAbandonedEnd hs ht, Work.finishQuiet_rested (w := s.work.shiftFreed) hrest.1,
      Work.reportQuiet_none (w := s.work.shiftFreed) hholds, Work.finish_rested (w := s.work.shiftFreed) hrest.1]
    rfl

/-! ### CHAIN_RESET -/

/-- Settles O37: one case for each chain state. -/
theorem chainResetRepliesByChainState : Obligations.ChainResetRepliesByChainState := by
  refine fun s => ⟨fun h => ?_, fun h => ?_, fun h hreset => ?_⟩ <;> change execChainReset s = _
  · simp only [execChainReset, onWork_eq, h]
  · simp only [execChainReset, onWork_eq, h]
  · simp only [execChainReset, onWork_eq, h, Work.requestReset, hreset]; rfl

end Chain

/-! ### Filtered inputs -/

/-- Settles O49: the events write what the statement names; a level that is high already does not rise. -/
theorem filterEventsTakeTheLevel : Obligations.FilterEventsTakeTheLevel := by
  refine fun s => ⟨fun n b => rfl, rfl, fun hhigh => ?_, fun hlow => ?_⟩ <;> change execSeatingChangeSeated s = _
  · rw [execSeatingChangeSeated, if_pos hhigh]
  · rw [execSeatingChangeSeated, if_neg (by simp [hlow])]
    rfl

end Sys2Proof.Machine
end

section
/-! PROOFS, family 02_the_node_map.md: the safety abort in every chain state, at the end of its event, and the
three triggers; O58. -/

namespace Sys2Proof.Machine

/-! ### The OPEN_ALL a safety abort asks for -/

/-- The chain with the OPEN_ALL that a safety abort or CLEAR asks for (R58, R61). -/
def Chain.asked (c : Chain) : Chain :=
  if c.state = .ready ∧ c.shiftingOpenAll = false ∧ c.requests = [] then { c with requests := [⟨.checked, true⟩] } else c

theorem Work.requestOpenAll_eq (w : Work) : w.requestOpenAll = { w with chain := w.chain.asked } := by
  unfold Work.requestOpenAll Chain.asked
  split <;> rfl

theorem Chain.asked_waiting (c : Chain) : c.asked.waiting = c.waiting := by
  unfold Chain.asked
  split <;> rfl

theorem Chain.asked_requests_congr {c d : Chain} (hstate : d.state = c.state) (hreq : d.requests = c.requests)
    (hshift : d.shiftingOpenAll = c.shiftingOpenAll) : d.asked.requests = c.asked.requests := by
  unfold Chain.asked
  rw [hstate, hreq, hshift]
  split
  · rfl
  · exact hreq

/-- An abandoned CLOSE or OPEN is no OPEN_ALL. -/
theorem Work.Keeps.shiftingOpenAll {w v : Work} (h : w.Keeps v) : v.chain.shiftingOpenAll = w.chain.shiftingOpenAll := by
  rcases h.shift with hs | ⟨f, ends, hw, hv⟩
  · unfold Chain.shiftingOpenAll; rw [hs]
  · unfold Chain.shiftingOpenAll; rw [hw, hv]

/-! ### The event of a safety abort -/

/-- The part after a safety abort and the end of its event. -/
def Work.safetyEvent (w : Work) (e : Env) (c : Cause) : Work := (w.safetyAbort e c).finish e

/-- The part of a safety abort as its records are offered. -/
def Work.heldAll (w : Work) (e : Env) (c : Cause) : Work := ((w.raise c).abortLanes e).requestOpenAll

section Event

variable (w : Work) (e : Env) (c : Cause)

theorem Work.safetyAbort_eq : w.safetyAbort e c = (w.heldAll e c).offerAll e := rfl

theorem Work.heldAll_lane (n : LaneId) : (w.heldAll e c).lane n = ((w.raise c).abortLanes e).lane n := by
  rw [Work.heldAll, Work.requestOpenAll_frame]; rfl

theorem Work.heldAll_halted : (w.heldAll e c).Halted := fun n d hd =>
  (w.raise c).abortLanes_halted e n d (by rwa [Work.heldAll_lane] at hd)

theorem Work.safetyAbort_rests : (w.safetyAbort e c).Halted := (w.heldAll_halted e c).offerAll e

/-- The request of a safety abort stands as if it were asked for before the lanes are held. -/
theorem Work.Keeps.asked {w v : Work} (h : w.Keeps v) (hreq : v.chain.requests = w.chain.requests) :
    v.requestOpenAll.chain.requests = w.chain.asked.requests := by
  rw [Work.requestOpenAll_eq]
  exact Chain.asked_requests_congr h.state hreq h.shiftingOpenAll

theorem Work.heldAll_requests : (w.heldAll e c).chain.requests = w.chain.asked.requests :=
  ((w.raise c).abortLanes_keeps e).asked ((w.raise c).abortLanes_edits e).leaves.requests

theorem Work.heldAll_notices_port :
    (w.heldAll e c).notices[0] = (w.raise c).notices[0] ∧ (w.heldAll e c).port = w.port := by
  have haborts := ((w.raise c).abortLanes_edits e).leaves
  rw [Work.heldAll, Work.requestOpenAll_frame]
  exact ⟨haborts.safety, haborts.port⟩

theorem Work.offerAll_leaves (v : Work) : v.EditLeaves (v.offerAll e) :=
  (Editing.foldl _ (fun v n => Editing.offer v e n) allLanes v).leaves

/-- With no lane that can claim, the end of an event hands out slots at most. -/
theorem Work.finish_served {v : Work} (h : v.Halted) (e : Env) :
    v.ServedOnly (v.finish e) ∧ (v.finish e).port = v.port := by
  by_cases hw : v.wake = true
  · exact Work.finish_servedOnly h hw v.port e
  · rw [Work.finish_rested (by simpa using hw)]
    exact ⟨⟨rfl, rfl, rfl, rfl, rfl, rfl, rfl, fun _ => rfl, fun m => ⟨(v.node m).due, rfl⟩, fun _ f hf => .inl hf⟩, rfl⟩

/-- The requests, the SAFETY source and the port after the event of a safety abort, in every part (R58, R182). -/
theorem Work.safetyEvent_leaves :
    (w.safetyEvent e c).chain.requests = w.chain.asked.requests ∧
      (w.safetyEvent e c).notices[0] = (w.raise c).notices[0] ∧ (w.safetyEvent e c).port = w.port := by
  have hhalted := w.safetyAbort_rests e c
  have hoffers := Work.offerAll_leaves e (w.heldAll e c)
  have hrequests := w.heldAll_requests e c
  obtain ⟨hsafety, hport⟩ := w.heldAll_notices_port e c
  rw [Work.safetyEvent]
  rw [← Work.safetyAbort_eq] at hoffers
  obtain ⟨v, hv⟩ : ∃ v : Work, v = w.safetyAbort e c := ⟨_, rfl⟩
  rw [← hv] at hhalted hoffers ⊢
  obtain ⟨hserved, hends⟩ := Work.finish_served hhalted e
  exact ⟨hserved.requests.trans (hoffers.requests.trans hrequests),
    (congrArg (·[0]) hserved.notices).trans (hoffers.safety.trans hsafety), hends.trans (hoffers.port.trans hport)⟩

end Event

/-! ### Lanes with no step -/

/-- With no step anywhere, no lane claims and no record is offered. -/
theorem Work.safetyEvent_idle {w : Work} (e : Env) (c : Cause) (hrest : w.rested)
    (hidle : ∀ n : LaneId, (w.lane n).cur = none) :
    ∃ v : Work, w.safetyEvent e c = v ∧ (∀ n, v.lane n = (w.lane n).aborted) ∧
      v = { w with lanes := v.lanes, chain := w.chain.asked, notices := (w.raise c).notices } := by
  obtain ⟨u, hfold, hu, hul⟩ := Work.holdIdles (w := w.raise c) e nodup_allLanes fun m _ => hidle m
  have hlane : ∀ n, u.lane n = (w.lane n).aborted := fun n => by
    rw [hul, if_pos (mem_allLanes n), Lane.aborted_idle (hidle n)]; rfl
  have hheld : w.heldAll e c = { u with chain := w.chain.asked } := by
    rw [Work.heldAll, Work.abortLanes, hfold, Work.requestOpenAll_eq, hu]; rfl
  have hoffers : ({ u with chain := w.chain.asked } : Work).offerAll e = { u with chain := w.chain.asked } :=
    Work.offerAll_keeps fun n d hd => by
      have : (w.lane n).aborted.cur = some d := (congrArg Lane.cur (hlane n)).symm.trans hd
      rw [Lane.aborted_idle (hidle n), Lane.holdIdle_cur, hidle n] at this
      simp at this
  refine ⟨{ u with chain := w.chain.asked }, ?_, hlane, ?_⟩
  · rw [Work.safetyEvent, Work.safetyAbort_eq, hheld, hoffers, Work.finish_rested (by rw [hu]; exact hrest.1)]
  · conv_lhs => rw [hu]
    rfl

/-! ### Lanes with no step past CLAIM -/

/-- The part with a trigger left over. -/
def Work.woken (w : Work) : Work := { w with wake := true }

/-- No step is past CLAIM. -/
def Work.AtOrBeforeClaim (w : Work) : Prop :=
  ∀ (n : LaneId) (c : CurStep), (w.lane n).cur = some c → c.phase.pastClaim = false

theorem Work.AtOrBeforeClaim.abortLane {w : Work} (h : w.AtOrBeforeClaim) (e : Env) (n : LaneId) :
    (w.abortLane e n).AtOrBeforeClaim := by
  obtain ⟨hother, hself⟩ := w.abortLane_cur e n
  intro m c hc
  by_cases hm : m = n
  · subst hm
    rcases hself c hc with hp | hp <;> rw [hp] <;> rfl
  · exact h m c (by rwa [hother m hm] at hc)

section Woken

variable (w : Work)

theorem Work.onLane_woken (n : LaneId) (f : Lane → Lane) : w.woken.onLane n f = (w.onLane n f).woken := rfl

theorem Work.leaveClaim_woken (n : LaneId) : w.woken.leaveClaim n = (w.leaveClaim n).woken := by
  unfold Work.leaveClaim Work.clearMarks
  dsimp only [Work.woken]
  split <;> rfl

theorem Work.unfreeze_woken (n : LaneId) (r : StepRecord) : w.woken.unfreeze n r = (w.unfreeze n r).woken := by
  unfold Work.unfreeze
  split <;> rfl

end Woken

theorem Work.abortLane_woken {w : Work} (h : w.AtOrBeforeClaim) (e : Env) (n : LaneId) :
    w.woken.abortLane e n = (w.abortLane e n).woken := by
  have hlane : w.woken.lane n = w.lane n := rfl
  cases hc : (w.lane n).cur with
  | none => rw [Work.abortLane_none hc, Work.abortLane_none (by rw [hlane]; exact hc), Work.onLane_woken]
  | some c =>
    by_cases hd : c.phase = .deliver
    · rw [Work.abortLane_deliver hc hd, Work.abortLane_deliver (by rw [hlane]; exact hc) hd, Work.onLane_woken]
    · rw [Work.abortLane_kept hc (h n c hc) hd, Work.abortLane_kept (by rw [hlane]; exact hc) (h n c hc) hd,
        Work.keepStep_eq, Work.keepStep_eq, Work.onLane_woken, Work.leaveClaim_woken, Work.unfreeze_woken, Work.onLane_woken]

theorem Work.abortLanes_woken {w : Work} (h : w.AtOrBeforeClaim) (e : Env) :
    w.woken.abortLanes e = (w.abortLanes e).woken := by
  unfold Work.abortLanes
  generalize allLanes = ns
  induction ns generalizing w with
  | nil => rfl
  | cons n ns ih => rw [List.foldl_cons, List.foldl_cons, Work.abortLane_woken h, ih (h.abortLane e n)]

/-- A safety abort's event in a part with no step past CLAIM, no slot to fill and no record that fits (R183). -/
theorem Work.safetyEvent_quiet {w : Work} (e : Env) (c : Cause) (hrest : w.rested) (hwf : entriesWf w.nodes.entries)
    (hwaiting : w.chain.waiting = []) (hdue : w.dueNodes = []) (hq : ∀ n, w.Quiet n)
    (hclaims : ∀ a ∈ w.nodes.order, (w.lane a).keeps = true) :
    ∃ v : Work, w.safetyEvent e c = v ∧
      (∀ n, v.lane n =
        { (w.lane n).aborted with frozen := (w.lane n).frozen && !w.thaws (fun _ => true) n }) ∧
      (∀ m, v.node m = (w.node m).unmarkedFor fun a => (w.lane a).keeps) ∧
      v = { w with
            lanes := v.lanes
            nodes :=
              { w.nodes with
                entries := v.nodes.entries, order := w.nodes.order.filter fun a => !(w.lane a).keeps }
            chain := w.chain.asked, notices := (w.raise c).notices } := by
  have hbefore : (w.raise c).AtOrBeforeClaim := fun n d hd => (hq n d hd).1
  have hab := Work.abortLanes_quiet (w := (w.raise c).woken) e rfl hwf hbefore
  obtain ⟨a, ha⟩ : ∃ a : Work, a = (w.raise c).abortLanes e := ⟨_, rfl⟩
  rw [Work.abortLanes_woken hbefore, ← ha] at hab
  have hlane : ∀ n, a.lane n = { (w.lane n).aborted with frozen := (w.lane n).frozen && !w.thaws (fun _ => true) n } :=
    fun n => (hab.lane n).trans (by rw [if_pos rfl]; rfl)
  have hnode : ∀ m, a.node m = (w.node m).unmarkedFor fun a => (w.lane a).keeps := fun m => hab.node m
  have hframe : a =
      { w with
        lanes := a.lanes
        nodes := { w.nodes with entries := a.nodes.entries, order := w.nodes.order.filter fun a => !(w.lane a).keeps }
        notices := (w.raise c).notices, wake := a.wake } :=
    congrArg (fun v : Work => ({ v with wake := a.wake } : Work)) hab.frame
  have horder : a.nodes.order = [] := by
    rw [hframe]
    exact List.filter_eq_nil_iff.2 fun b hb => by simp [hclaims b hb]
  have hheld : w.heldAll e c = { a with chain := w.chain.asked } := by
    rw [Work.heldAll, ← ha, Work.requestOpenAll_eq, show a.chain = w.chain by rw [hframe]]
  have hoffers : ({ a with chain := w.chain.asked } : Work).offerAll e = { a with chain := w.chain.asked } :=
    Work.offerAll_keeps fun n d hd hp => by
      have hd' : (w.lane n).aborted.cur = some d := (congrArg Lane.cur (hlane n)).symm.trans hd
      have hfull := (hq n d (Lane.aborted_deliver hd' hp)).2 hp
      rw [hframe]
      exact hfull
  have hdueNow : ({ a with chain := w.chain.asked } : Work).dueNodes = [] :=
    List.eq_nil_iff_forall_not_mem.2 fun m hm => by
      have h := (Work.mem_dueNodes (w := { a with chain := w.chain.asked }) hab.wf m).1 hm
      have hw : (w.node m).wantsOpen = true := (congrArg NodeEntry.wantsOpen (hnode m)).symm.trans h
      have hmem := (Work.mem_dueNodes hwf m).2 hw
      rw [hdue] at hmem
      simp at hmem
  have hfinish : w.safetyEvent e c = { a with chain := w.chain.asked, wake := false, freed := false } := by
    rw [Work.safetyEvent, Work.safetyAbort_eq, hheld, hoffers]
    refine Work.finish_of_calm (w := { a with chain := w.chain.asked }) horder ?_ hdueNow (fun hf => ?_) e
    · exact w.chain.asked_waiting.trans hwaiting
    · have hfreed : a.freed = false := by rw [hframe]; exact hrest.2
      exact absurd (hfreed.symm.trans hf) (by simp)
  refine ⟨_, hfinish, hlane, hnode, ?_⟩
  obtain ⟨hwake, hfreed⟩ := hrest
  conv_lhs => rw [hframe]
  simp only [hwake, hfreed]

/-! ### One step past CLAIM -/

/-- The lanes as `Work.abortLanes_onePast` leaves them: one step in DELIVER, its lane to be held at the delivery. -/
structure Work.CutOne (w v : Work) (e : Env) (n : LaneId) (c : CurStep) : Prop where
  results : v.results = w.results
  self : v.lane n =
    ({ (w.lane n).cutOff (decide ((e.cfg n).lineMode = .auto)) c with cur := some (c.aborted n) } : Lane).holdNext
  others : ∀ m, m ≠ n → v.lane m =
    (w.lane m).cutAndHeld (decide (fusedFollower n c.step = some m)) (decide ((e.cfg m).lineMode = .auto)) c
  holder : ∀ k, (v.node k).holder =
    if k ∈ c.nodes.map (·.1) ∧ (w.node k).holder = .lane n then .none else (w.node k).holder
  holds : n ∉ v.chain.holds

theorem Work.heldAll_cutOne {w : Work} {e : Env} (cause : Cause) {n : LaneId} {c : CurStep} (h : w.OnePast n c) :
    w.CutOne (w.heldAll e cause) e n c := by
  have hpast : (w.raise cause).OnePast n c := ⟨h.cur, h.past, h.alone, h.host, h.room, h.thawed, h.results⟩
  obtain ⟨v, hv, hresults, hself, hothers, hholder, hholds⟩ := Work.abortLanes_onePast e hpast
  rw [Work.heldAll, hv, Work.requestOpenAll_frame]
  refine ⟨hresults, hself, hothers, hholder, ?_⟩
  rw [v.requestOpenAll_frame] at *
  exact hholds

/-- The record of the step that was cut off is delivered, and its lane is held (R184, R185). -/
theorem Work.CutOne.offered {w v : Work} {e : Env} {n : LaneId} {c : CurStep} (h : w.OnePast n c) (hv : w.CutOne v e n c) :
    w.EndsOne (v.offerAll e) e n c := by
  have halone : ∀ m, m ≠ n → (v.lane m).cur = none := fun m hm => by
    rw [hv.others m hm, Lane.cutAndHeld_cur]; exact h.alone m hm
  have hcur : (v.lane n).cur = some (c.aborted n) := by rw [hv.self]; rfl
  have hthawed : (v.lane n).frozen = false := by rw [hv.self]; exact h.thawed
  obtain ⟨k, hk⟩ := Work.deliver_pair (w := v) e (n := n) (c := c.aborted n) (c.toRecord n .aborted) h.host hthawed
  rw [Work.offerAll_one e hcur rfl rfl h.host hthawed (by rw [hv.results]; exact h.results) halone, hk]
  obtain ⟨u, hu⟩ : ∃ u : Work, u = v.onLane n fun l => l.delivered (verdictHalts (e.cfg n) (c.toRecord n .aborted).verdict) :=
    ⟨_, rfl⟩
  rw [← hu]
  have hun : u.lane n = (v.lane n).delivered (verdictHalts (e.cfg n) (c.toRecord n .aborted).verdict) := by
    rw [hu, Work.lane_onLane]
  have hum : ∀ m, m ≠ n → u.lane m = v.lane m := fun m hm => by rw [hu, Work.lane_onLane_ne _ _ hm]
  have hnode : ∀ k, u.node k = v.node k := Work.node_congr (by rw [hu]; rfl)
  have hholds : u.chain.holds = v.chain.holds := by rw [hu]; rfl
  obtain ⟨hnodes, hchain⟩ := u.endPair_parts n (c.aborted n).step
  obtain ⟨hdcur, hdrun, hdunheld, hdtx, hdsrc, hdgate⟩ := Lane.delivered_holdNext
    ({ (w.lane n).cutOff (decide ((e.cfg n).lineMode = .auto)) c with cur := some (c.aborted n) } : Lane)
    (verdictHalts (e.cfg n) (c.toRecord n .aborted).verdict)
  have hn : (u.endPair n (c.aborted n).step).lane n =
      ({ (w.lane n).cutOff (decide ((e.cfg n).lineMode = .auto)) c with cur := some (c.aborted n) } : Lane).holdNext.delivered
        (verdictHalts (e.cfg n) (c.toRecord n .aborted).verdict) := by
    rw [Work.endPair_lane_self, hun, hv.self]
  have hm : ∀ m, m ≠ n → (u.endPair n (c.aborted n).step).lane m =
      if fusedFollower n c.step = some m then
        { (w.lane m).cutAndHeld true (decide ((e.cfg m).lineMode = .auto)) c with frozen := false }
      else (w.lane m).holdIdle := fun m hm => by
    have hlanem := (hum m hm).trans (hv.others m hm)
    rw [Work.endPair_lane u _ hm (by rw [hlanem]; exact Lane.cutAndHeld_run _ _ _ _), hlanem]
    by_cases hf : fusedFollower n c.step = some m
    · simp [hf, CurStep.aborted]
    · simp [hf, CurStep.aborted, Lane.cutAndHeld]
  have hlane : ∀ (m : LaneId) (rs : List ResultRecord) (d : LaneId) (k : Vector (BitVec 5) 6),
      ({ u.endPair n (c.aborted n).step with results := rs, lastDelivering := d, notices := k } : Work).lane m =
        (u.endPair n (c.aborted n).step).lane m := fun _ _ _ _ => rfl
  refine ⟨congrArg (· ++ _) hv.results, ?_, ?_, ?_, ?_, fun ha => ⟨?_, ?_⟩, fun m hmn => ?_, fun k => ?_, ?_⟩
  · rw [hlane, hn]; exact hdcur
  · rw [hlane, hn]; exact hdrun
  · rw [hlane, hn]; exact hdunheld
  · rw [hlane, hn]; exact hdtx
  · rw [hlane, hn, hdsrc]; simp [Lane.cutOff, Lane.stopped, ha]
  · rw [hlane, hn, hdgate]; simp [Lane.cutOff, Lane.stopped, ha]
  · rw [hlane]; exact hm m hmn
  · exact (congrArg NodeEntry.holder ((Work.node_congr hnodes k).trans (hnode k))).trans (hv.holder k)
  · intro hmem
    refine hv.holds ?_
    rw [← hholds, ← hchain]
    exact hmem

/-- The end of an event with no lane that can claim leaves what a safety abort left of its one step. -/
theorem Work.ServedOnly.endsOne {w v u : Work} {e : Env} {n : LaneId} {c : CurStep} (hs : v.ServedOnly u)
    (h : w.EndsOne v e n c) : w.EndsOne u e n c := by
  refine ⟨hs.results.trans h.results, ?_, ?_, ?_, ?_, ?_, fun m hm => ?_, fun k => ?_, ?_⟩
  · rw [hs.lane]; exact h.cur
  · rw [hs.lane]; exact h.run
  · rw [hs.lane]; exact h.unheld
  · rw [hs.lane]; exact h.tx
  · rw [hs.lane]; exact h.lines
  · rw [hs.lane]; exact h.others m hm
  · rw [(hs.keeps k).2.2]; exact h.holder k
  · rw [hs.holds]; exact h.holds

theorem Work.safetyEvent_onePast {w : Work} (e : Env) (cause : Cause) {n : LaneId} {c : CurStep} (h : w.OnePast n c) :
    w.EndsOne (w.safetyEvent e cause) e n c :=
  (Work.finish_served (w.safetyAbort_rests e cause) e).1.endsOne ((Work.heldAll_cutOne cause h).offered h)

/-! ### The triggers -/

section Triggers

variable {s : State}

theorem exec_abortAll (s : State) :
    exec .abortAll s = .next { s with work := (s.work.safetyEvent s.env .abort).reply 0x12 .ok [] } := rfl

theorem exec_abortNEdge (h : s.inputs.abortN.level = true) :
    exec .abortNEdge s =
      .next
        { s with
          inputs := { s.inputs with abortNPin := false, abortN := ⟨false, false, false⟩ }
          work := s.work.safetyEvent
            { s.env with inputs := { s.inputs with abortNPin := false, abortN := ⟨false, false, false⟩ } } .abort } := by
  change execAbortNEdge s = _
  rw [execAbortNEdge, if_pos h]
  rfl

theorem exec_seatingChangeUnseated (h : s.inputs.seated.level = true) :
    exec .seatingChangeUnseated s =
      .next
        { s with
          inputs := { s.inputs with seatedPin := false, seated := ⟨false, false, false⟩ }
          work := s.work.abandonClose.safetyEvent
            { s.env with inputs := { s.inputs with seatedPin := false, seated := ⟨false, false, false⟩ } } .unseat } := by
  change execSeatingChangeUnseated s = _
  rw [execSeatingChangeUnseated, if_pos h]
  rfl

end Triggers

/-! ### The obligation -/

theorem Work.abandonClose_eq (w : Work) :
    w.abandonClose =
      { w with
        chain :=
          { w.chain with
            shift :=
              match w.chain.shift with
              | some ⟨.frame (.close _ _), ends⟩ => some ⟨.abandoned, ends⟩
              | x => x } } := by
  unfold Work.abandonClose
  rcases w.chain.shift with _ | ⟨kind, ends⟩
  · rfl
  · rcases kind with f | k | _
    · cases f <;> rfl
    · rfl
    · rfl

theorem Work.Quiet.of_phases {w : Work} (h : ∀ (n : LaneId) (c : CurStep), (w.lane n).cur = some c →
    c.phase = .none ∨ c.phase = .fuseWait ∨ c.phase = .tokenWait ∨ c.phase = .claim ∨
      (c.phase = .deliver ∧ 128 ≤ w.results.length)) (n : LaneId) : w.Quiet n := by
  intro c hc
  rcases h n c hc with hp | hp | hp | hp | ⟨hp, hfull⟩
  case inr.inr.inr.inr => exact ⟨by rw [hp]; rfl, fun _ => hfull⟩
  all_goals exact ⟨by rw [hp]; rfl, fun hd => by simp [hp] at hd⟩

/-- Settles O58: each trigger is the event of a safety abort of the part, behind the abandonment of a CLOSE at a fall of
SEATED; what that event leaves depends on the lanes' steps alone. -/
theorem safetyTriggersHoldEveryLane : Obligations.SafetyTriggersHoldEveryLane := by
  refine ⟨fun s hrest => ?_, fun w e n c hc hp => Work.abortLane_past hc (pastClaim_iff.2 hp)⟩
  intro asked unclosed raised triggers keeps keepsFused point hit
  have hhit : hit = Lane.aborted := rfl
  have htriggers : ∀ outcome : Work → Chain → BitVec 5 → Prop,
      (∀ (C : Chain) (e : Env) (cause : Cause) (bit : BitVec 5), C.waiting = s.work.chain.waiting → e.cfg = s.env.cfg →
        (({ s.work with chain := C } : Work).raise cause).notices = raised bit →
        outcome (({ s.work with chain := C } : Work).safetyEvent e cause) C bit) → triggers outcome := by
    intro outcome h
    refine ⟨⟨_, exec_abortAll s, h s.work.chain s.env .abort 4 rfl rfl rfl, (s.work.safetyEvent_leaves s.env .abort).2.2⟩,
      fun hn => ⟨_, exec_abortNEdge hn, h s.work.chain _ .abort 4 rfl rfl rfl⟩, fun hn => ?_⟩
    have hexec := exec_seatingChangeUnseated hn
    rw [Work.abandonClose_eq] at hexec
    exact ⟨_, hexec, h unclosed _ .unseat 1 rfl rfl rfl⟩
  clear_value triggers
  refine ⟨fun hidle => ?_, fun hwf hwaiting hdue hkept hclaims => ?_,
    fun n c hc hp halone hpair ho htx hthawed _ hlen => ?_, fun hn => ?_, fun hn => ?_⟩
  · refine htriggers _ fun C e cause bit _ _ hraised => ?_
    obtain ⟨v, hv, hlane, hframe⟩ := Work.safetyEvent_idle (w := { s.work with chain := C }) e cause hrest hidle
    rw [hraised] at hframe
    rw [hv]
    exact ⟨hlane, hframe⟩
  · refine htriggers _ fun C e cause bit hwait _ hraised => ?_
    obtain ⟨v, hv, hlane, hnode, hframe⟩ := Work.safetyEvent_quiet (w := { s.work with chain := C }) e cause hrest hwf
      (hwait.trans hwaiting) hdue (Work.Quiet.of_phases hkept) hclaims
    have horder : (s.work.nodes.order.filter fun a => !(s.work.lane a).keeps) = [] :=
      List.filter_eq_nil_iff.2 fun a ha => by
        have hk : (s.work.lane a).keeps = true := hclaims a ha
        simp [hk]
    rw [hraised] at hframe
    rw [hv]
    refine ⟨fun n => ?_, fun m => (hnode m).trans (NodeEntry.unmarkedFor_eq _ _), ?_⟩
    · have hafter := hlane n
      rw [Work.frozen_after] at hafter
      exact hafter
    · refine hframe.trans ?_
      rw [← horder]
      rfl
  · intro auto ended
    refine htriggers _ fun C e cause bit _ hcfg hraised => ?_
    have hpast : ({ s.work with chain := C } : Work).OnePast n c := ⟨hc, hp, halone, ho, htx, hthawed, hlen⟩
    have hend := Work.safetyEvent_onePast e cause hpast
    obtain ⟨hrequests, hsafety, _⟩ := ({ s.work with chain := C } : Work).safetyEvent_leaves e cause
    refine ⟨hend.results, hend.cur, hend.run, hend.unheld, hend.tx, fun ha => hend.lines (by rw [hcfg]; exact ha),
      fun m hm => ?_, hend.holder, hrequests, hend.holds, ?_⟩
    · have hended : (if c.step.flags.fused = true ∧ m = n + 1 then
          { (s.work.lane m).cutLines (decide ((s.env.cfg m).lineMode = .auto)) c with
            frozen := false, c1 := (s.work.lane m).c1.stop, c2 := (s.work.lane m).c2.stop }
          else s.work.lane m) = ended m := by
        simp only [Lane.cutLines, decide_eq_true_eq]
        rfl
      have hcur : (ended m).cur = none := by
        rw [← hended]
        split <;> exact halone m hm
      have hheld := hend.others_held hpair hm
      rw [hcfg] at hheld
      rw [hhit, Lane.aborted_idle hcur, ← hended]
      exact hheld
    · rw [hsafety, hraised]
      exact Vector.getElem_set_self (by decide)
  · change execAbortNEdge s = _
    rw [execAbortNEdge, if_neg (by simp [hn])]
  · change execSeatingChangeUnseated s = _
    rw [execSeatingChangeUnseated, if_neg (by simp [hn])]

end Sys2Proof.Machine
end

section
/-! PROOFS, family 05_lane_sequencing.md: the lanes of a step, one or two, written together, from SOURCE to the gate's
end. -/

namespace Sys2Proof.Machine

/-! ### Writing the lanes of a step -/

/-- The part with other tokens and another chain, the step's lane `n` rewritten by `g` and its follower, on a FUSED
step, by `h`. -/
def Work.stepped (w : Work) (ts : Vector Token 32) (ch : Chain) (n : LaneId) (r : StepRecord) (g : Lane → Lane)
    (h : LaneId → Lane → Lane) : Work :=
  match fusedFollower n r with
  | none => ({ w with tokens := ts, chain := ch } : Work).onLane n g
  | some f => (({ w with tokens := ts, chain := ch } : Work).onLane n g).onLane f (h f)

section Stepped

variable {w : Work} {ts : Vector Token 32} {ch : Chain} {n : LaneId} {r : StepRecord} {g : Lane → Lane}
  {h : LaneId → Lane → Lane}

theorem Work.stepped_fields (w : Work) (ts : Vector Token 32) (ch : Chain) (n : LaneId) (r : StepRecord) (g : Lane → Lane)
    (h : LaneId → Lane → Lane) :
    w.stepped ts ch n r g h = { w with tokens := ts, chain := ch, lanes := (w.stepped ts ch n r g h).lanes } := by
  unfold Work.stepped
  split <;> rfl

theorem Work.stepped_chain : (w.stepped ts ch n r g h).chain = ch := by rw [Work.stepped_fields]

theorem Work.stepped_tokens : (w.stepped ts ch n r g h).tokens = ts := by rw [Work.stepped_fields]

theorem Work.stepped_wake : (w.stepped ts ch n r g h).wake = w.wake := by rw [Work.stepped_fields]

theorem Work.lane_stepped (m : LaneId) :
    (w.stepped ts ch n r g h).lane m =
      if m = n then g (w.lane n) else if fusedFollower n r = some m then h m (w.lane m) else w.lane m := by
  have hlane : ∀ a, ({ w with tokens := ts, chain := ch } : Work).lane a = w.lane a := fun _ => rfl
  unfold Work.stepped
  split
  · next hf =>
    by_cases hm : m = n
    · subst hm; rw [if_pos rfl, Work.lane_onLane, hlane]
    · rw [if_neg hm, Work.lane_onLane_ne _ _ hm, hlane, hf, if_neg (by simp)]
  · next f hf =>
    have hne := fusedFollower_ne hf
    by_cases hm : m = n
    · subst hm; rw [if_pos rfl, Work.lane_onLane_ne _ _ hne.symm, Work.lane_onLane, hlane]
    · rw [if_neg hm, hf]
      by_cases hmf : m = f
      · subst hmf; rw [if_pos rfl, Work.lane_onLane, Work.lane_onLane_ne _ _ hm, hlane]
      · rw [if_neg (by simpa using Ne.symm hmf), Work.lane_onLane_ne _ _ hmf, Work.lane_onLane_ne _ _ hm, hlane]

theorem Work.lane_stepped_self : (w.stepped ts ch n r g h).lane n = g (w.lane n) := by rw [Work.lane_stepped, if_pos rfl]

/-- Two parts that agree beside the lanes agree when the lanes of the step do. -/
theorem Work.eq_stepped {v : Work} (hv : v = { w with tokens := ts, chain := ch, lanes := v.lanes })
    (hl : ∀ m, v.lane m =
      if m = n then g (w.lane n) else if fusedFollower n r = some m then h m (w.lane m) else w.lane m) :
    v = w.stepped ts ch n r g h := by
  have hs := w.stepped_fields ts ch n r g h
  have hlanes : v.lanes = (w.stepped ts ch n r g h).lanes := by
    apply Vector.ext
    intro i hi
    exact (hl ⟨i, hi⟩).trans (Work.lane_stepped ⟨i, hi⟩).symm
  rw [hv, hs, hlanes]

/-- The follower's part counts at the step's own follower alone. -/
theorem Work.stepped_congr {h' : LaneId → Lane → Lane} (hh : ∀ f, fusedFollower n r = some f → h f = h' f) :
    w.stepped ts ch n r g h = w.stepped ts ch n r g h' := by
  unfold Work.stepped
  split
  · rfl
  · next f hf => rw [hh f hf]

theorem Work.stepped_id (w : Work) (n : LaneId) (r : StepRecord) :
    w.stepped w.tokens w.chain n r (fun l => l) (fun _ l => l) = w :=
  (Work.eq_stepped rfl fun m => by split <;> simp_all).symm

theorem Work.stepped_chainOf (ch' : Chain) :
    ({ w.stepped ts ch n r g h with chain := ch' } : Work) = w.stepped ts ch' n r g h := by
  refine Work.eq_stepped ?_ fun m => Work.lane_stepped m
  conv_lhs => rw [Work.stepped_fields]

theorem Work.stepped_tokensOf (ts' : Vector Token 32) :
    ({ w.stepped ts ch n r g h with tokens := ts' } : Work) = w.stepped ts' ch n r g h := by
  refine Work.eq_stepped ?_ fun m => Work.lane_stepped m
  conv_lhs => rw [Work.stepped_fields]

/-! ### The operations on the lanes of a step -/

theorem Work.onLane_stepped (k : Lane → Lane) :
    (w.stepped ts ch n r g h).onLane n k = w.stepped ts ch n r (fun l => k (g l)) h := by
  refine Work.eq_stepped ?_ fun m => ?_
  · conv_lhs => rw [Work.stepped_fields]
    rfl
  · by_cases hm : m = n
    · subst hm; rw [Work.lane_onLane, Work.lane_stepped_self, if_pos rfl]
    · rw [Work.lane_onLane_ne _ _ hm, Work.lane_stepped, if_neg hm, if_neg hm]

theorem Work.onLane_stepped_follower {f : LaneId} (hf : fusedFollower n r = some f) (k : Lane → Lane) :
    (w.stepped ts ch n r g h).onLane f k = w.stepped ts ch n r g fun a l => k (h a l) := by
  refine Work.eq_stepped ?_ fun m => ?_
  · conv_lhs => rw [Work.stepped_fields]
    rfl
  · have hne := fusedFollower_ne hf
    by_cases hm : m = f
    · subst hm; rw [Work.lane_onLane, Work.lane_stepped, if_neg hne, if_neg hne, if_pos hf, if_pos hf]
    · have hother : ¬ fusedFollower n r = some m := fun h => hm (Option.some.inj (h.symm.trans hf))
      rw [Work.lane_onLane_ne _ _ hm, Work.lane_stepped, if_neg hother, if_neg hother]

theorem Work.setCur_stepped (x : Option CurStep) :
    (w.stepped ts ch n r g h).setCur n x = w.stepped ts ch n r (fun l => { g l with cur := x }) h :=
  Work.onLane_stepped _

theorem Work.startWatch_stepped (e : Env) (r' : StepRecord) :
    (w.stepped ts ch n r g h).startWatch e n r' =
      w.stepped ts ch n r (fun l => { g l with c3 := Channel.startDown e.clock r'.flags.coarse r'.watch }) h :=
  Work.onLane_stepped _

theorem Work.startEach_stepped (k : Lane → Lane) :
    (w.stepped ts ch n r g h).startEach (stepLanes n r) k = w.stepped ts ch n r (fun l => k (g l)) fun f l => k (h f l) := by
  cases hf : fusedFollower n r with
  | none =>
    have hlanes : stepLanes n r = [n] := by simp [stepLanes, hf]
    rw [hlanes, Work.startEach, List.foldl_cons, List.foldl_nil, Work.onLane_stepped]
    exact Work.stepped_congr fun f hf' => by simp [hf] at hf'
  | some f =>
    rw [stepLanes_pair hf, Work.startEach, List.foldl_cons, List.foldl_cons, List.foldl_nil, Work.onLane_stepped,
      Work.onLane_stepped_follower hf]

theorem Work.driveAll_stepped (e : Env) (src gate : Bool) :
    (w.stepped ts ch n r g h).driveAll e (stepLanes n r) src gate =
      w.stepped ts ch n r (fun l => (g l).driven (e.cfg n) src gate) fun f l => (h f l).driven (e.cfg f) src gate := by
  cases hf : fusedFollower n r with
  | none =>
    have hlanes : stepLanes n r = [n] := by simp [stepLanes, hf]
    rw [hlanes, Work.driveAll, List.foldl_cons, List.foldl_nil, Work.drive_onLane, Work.onLane_stepped]
    exact Work.stepped_congr fun f hf' => by simp [hf] at hf'
  | some f =>
    rw [stepLanes_pair hf, Work.driveAll, List.foldl_cons, List.foldl_cons, List.foldl_nil, Work.drive_onLane,
      Work.drive_onLane, Work.onLane_stepped, Work.onLane_stepped_follower hf]
    exact Work.stepped_congr fun a ha => by rw [Option.some.inj (hf.symm.trans ha)]

/-! ### Quiet holds -/

/-- The chain with a lane's quiet hold taken (R51). -/
def Chain.taken (c : Chain) (n : LaneId) : Chain := if n ∈ c.holds then c else { c with holds := c.holds ++ [n] }

/-- The chain with a lane's quiet hold released (R51). -/
def Chain.released (c : Chain) (n : LaneId) : Chain :=
  if n ∈ c.holds then { c with holds := c.holds.filter (· != n), holdOff := true } else c

theorem Chain.released_none {c : Chain} (h : n ∉ c.holds) : c.released n = c := if_neg h

theorem Chain.taken_none {c : Chain} (h : n ∉ c.holds) : c.taken n = { c with holds := c.holds ++ [n] } := if_neg h

/-- A hold that is taken and released at one event leaves the mark of its release. -/
theorem Chain.released_taken {c : Chain} (h : n ∉ c.holds) : (c.taken n).released n = { c with holdOff := true } := by
  have hfilter : c.holds.filter (· != n) = c.holds := List.filter_eq_self.2 fun m hm => by
    have : m ≠ n := fun he => h (he ▸ hm)
    simpa using this
  rw [Chain.taken_none h, Chain.released, if_pos (by simp)]
  simp [hfilter]

theorem Chain.not_mem_released (c : Chain) (n : LaneId) : n ∉ (c.released n).holds := by
  unfold Chain.released
  split
  · simp
  · assumption

theorem Chain.isQuiet_iff (c : Chain) : c.isQuiet = true ↔ c.inflight = [] ∧ c.shift = none := by
  simp [Chain.isQuiet]

theorem Chain.isQuiet_taken (c : Chain) (n : LaneId) : (c.taken n).isQuiet = c.isQuiet := by
  unfold Chain.taken
  split <;> rfl

theorem Work.releaseHold_eq (w : Work) (n : LaneId) : w.releaseHold n = { w with chain := w.chain.released n } := by
  unfold Work.releaseHold Chain.released
  by_cases h : n ∈ w.chain.holds <;> simp [h]

theorem Work.takeHold_eq (w : Work) (n : LaneId) : w.takeHold n = { w with chain := w.chain.taken n } := by
  unfold Work.takeHold Chain.taken
  by_cases h : n ∈ w.chain.holds <;> simp [h]

theorem Work.releaseHold_stepped (m : LaneId) :
    (w.stepped ts ch n r g h).releaseHold m = w.stepped ts (ch.released m) n r g h := by
  rw [Work.releaseHold_eq, Work.stepped_chain, Work.stepped_chainOf]

theorem Work.takeHold_stepped (m : LaneId) :
    (w.stepped ts ch n r g h).takeHold m = w.stepped ts (ch.taken m) n r g h := by
  rw [Work.takeHold_eq, Work.stepped_chain, Work.stepped_chainOf]

end Stepped

/-! ### The post token of a gate -/

/-- What the post of a step's post token leaves (R147, R148): the tokens, and whether the post is lost; no post goes to a
lane that waits. -/
def Work.Posts (w : Work) (n : LaneId) (c : CurStep) (ts : Vector Token 32) (lost : Bool) : Prop :=
  (c.step.postToken = none ∧ ts = w.tokens ∧ lost = c.overpost) ∨
    (∃ k code, c.step.postToken = some (k, code) ∧
      ((w.tokens[k.val] ≠ none ∧ ts = w.tokens ∧ lost = true) ∨
        (w.tokens[k.val] = none ∧ w.waitingLanes k = [] ∧ lost = c.overpost ∧
          ts = w.tokens.set k.val (some (.lane n, code)))))

theorem Work.Posts.congr {w v : Work} {n : LaneId} {c : CurStep} {ts : Vector Token 32} {lost : Bool}
    (h : w.Posts n c ts lost) (ht : v.tokens = w.tokens) (hcur : ∀ m, (v.lane m).cur = (w.lane m).cur) :
    v.Posts n c ts lost := by
  unfold Work.Posts
  simp only [ht, Work.waitingLanes_congr hcur]
  exact h

/-- The step in GATE, its post told lost or not (R147). -/
def CurStep.gated (c : CurStep) (lost : Bool) : CurStep := { c with phase := .gate, overpost := lost }

theorem Work.Posts.gateStep {w : Work} {n : LaneId} {c : CurStep} {ts : Vector Token 32} {lost : Bool}
    (h : w.Posts n c ts lost) : w.gateStep c = c.gated lost := by
  unfold Work.gateStep
  rcases h with ⟨hp, _, rfl⟩ | ⟨k, code, hp, ⟨ht, _, rfl⟩ | ⟨ht, _, rfl, _⟩⟩
  · rw [hp]; rfl
  · have hsome : w.tokens[k.val].isSome = true := Option.isSome_iff_ne_none.2 ht
    simp only [hp, hsome, Bool.or_true]
    rfl
  · simp only [hp, ht, Option.isSome_none, Bool.or_false]
    rfl

theorem Work.postToken_posted {w : Work} {k : Fin 32} (p : Poster × Byte) (ht : w.tokens[k.val] ≠ none) :
    w.postToken k p = w := by
  obtain ⟨q, hq⟩ := Option.ne_none_iff_exists'.1 ht
  simp [Work.postToken, hq]

/-- The post at a part in which the step itself waits no longer. -/
theorem Work.Posts.postGate {w v : Work} {n : LaneId} {c d : CurStep} {ts : Vector Token 32} {lost : Bool}
    (h : w.Posts n c ts lost) (ht : v.tokens = w.tokens) (hn : (v.lane n).cur = some d) (hd : d.phase ≠ .tokenWait)
    (hcur : ∀ m, m ≠ n → (v.lane m).cur = (w.lane m).cur) :
    v.postGate n c.step = { v with tokens := ts } := by
  have hkeep : v = { v with tokens := w.tokens } := by rw [← ht]
  unfold Work.postGate
  rcases h with ⟨hp, rfl, _⟩ | ⟨k, code, hp, ⟨hk, rfl, _⟩ | ⟨hk, hwait, _, rfl⟩⟩
  · rw [hp]; exact hkeep
  · rw [hp]
    exact (Work.postToken_posted _ (by rw [ht]; exact hk)).trans hkeep
  · have hnone : v.waitingLanes k = [] := List.eq_nil_iff_forall_not_mem.2 fun m hm => by
      obtain ⟨x, hx, hphase, htok⟩ := Work.mem_waitingLanes.1 hm
      by_cases hmn : m = n
      · rw [hmn, hn] at hx
        exact hd (Option.some.inj hx ▸ hphase)
      · rw [hcur m hmn] at hx
        have hmem := Work.mem_waitingLanes.2 ⟨x, hx, hphase, htok⟩
        rw [hwait] at hmem
        simp at hmem
    rw [hp]
    exact (Work.postToken_unwaited (by rw [ht]; exact hk) hnone).trans (by rw [ht])

/-! ### From SOURCE to the gate's end -/

section Gate

variable {w : Work} {e : Env} {ts ts' : Vector Token 32} {ch : Chain} {n : LaneId} {c : CurStep} {lost : Bool}
  {g : Lane → Lane} {h : LaneId → Lane → Lane}

/-- A lane of a step as GATE begins: its lines, and C2 (R99, R129, R141). -/
def Lane.gateBegun (l : Lane) (e : Env) (a : LaneId) (r : StepRecord) : Lane :=
  { l.driven (e.cfg a) true (r.gateWidth != 0) with c2 := Channel.startDown e.clock r.flags.coarse r.gateWidth }

/-- The lane of a step whose gate ends with no attempt read: GATE falls and C3 starts (R99). -/
def Lane.gateEnded (l : Lane) (e : Env) (a : LaneId) (c : CurStep) : Lane :=
  { l.driven (e.cfg a) true false with
    cur := some c.gateEnded, c3 := Channel.startDown e.clock c.step.flags.coarse c.step.watch }

theorem Work.openGate_stepped :
    (w.stepped ts ch n c.step g h).openGate e n c =
      w.stepped ts ch n c.step (fun l => (g l).gateBegun e n c.step) fun f l => (h f l).gateBegun e f c.step := by
  rw [Work.openGate, Work.driveAll_stepped, Work.startEach_stepped]
  rfl

/-- The lines, C2, the step and its post at the beginning of GATE. -/
theorem Work.gateOpened_stepped (hp : (w.stepped ts ch n c.step g h).Posts n c ts' lost) :
    (((w.stepped ts ch n c.step g h).openGate e n c).setCur n
        (some ((w.stepped ts ch n c.step g h).gateStep c))).postGate n c.step =
      w.stepped ts' ch n c.step (fun l => { (g l).gateBegun e n c.step with cur := some (c.gated lost) })
        fun f l => (h f l).gateBegun e f c.step := by
  rw [hp.gateStep, Work.openGate_stepped, Work.setCur_stepped]
  rw [hp.postGate (d := c.gated lost) ?tokens ?self (by simp [CurStep.gated]) ?others, Work.stepped_tokensOf]
  case tokens => rw [Work.stepped_tokens, Work.stepped_tokens]
  case self => rw [Work.lane_stepped_self]
  case others =>
    intro m hm
    rw [Work.lane_stepped, Work.lane_stepped, if_neg hm, if_neg hm]
    split <;> rfl

/-- GATE begins and its width has still to run out (R99, R148). -/
theorem Work.beginGate_stepped (hp : (w.stepped ts ch n c.step g h).Posts n c ts' lost)
    (hw : c.step.gateWidth ≠ 0) :
    (w.stepped ts ch n c.step g h).beginGate e n c =
      w.stepped ts' ch n c.step (fun l => { (g l).gateBegun e n c.step with cur := some (c.gated lost) })
        fun f l => (h f l).gateBegun e f c.step := by
  rw [Work.beginGate, Work.gateOpened_stepped hp]
  exact if_neg hw

/-- The gate ends: GATE falls, the hold is released and held RESULTs are taken (R99). -/
theorem Work.gateClosed_stepped :
    (((w.stepped ts ch n c.step g h).driveAll e (stepLanes n c.step) true false).releaseHold n).setCur n (some c.gateEnded) =
      w.stepped ts (ch.released n) n c.step (fun l => { (g l).driven (e.cfg n) true false with cur := some c.gateEnded })
        fun f l => (h f l).driven (e.cfg f) true false := by
  rw [Work.driveAll_stepped, Work.releaseHold_stepped, Work.setCur_stepped]

/-- The gate ends with a RESULT still to come (R99). -/
theorem Work.endGate_stepped (hr : c.gateEnded.allRead = false) :
    (w.stepped ts ch n c.step g h).endGate e n c =
      w.stepped ts (ch.released n) n c.step (fun l => (g l).gateEnded e n c)
        fun f l => (h f l).driven (e.cfg f) true false := by
  rw [Work.endGate, Work.gateClosed_stepped]
  dsimp only
  rw [if_neg (by simp [hr]), Work.startWatch_stepped]
  rfl

/-- A gate width of 0 ends the gate as it begins (R129). -/
theorem Work.beginGate_stepped_zero (hp : (w.stepped ts ch n c.step g h).Posts n c ts' lost)
    (hw : c.step.gateWidth = 0) (hr : (c.gated lost).gateEnded.allRead = false) :
    (w.stepped ts ch n c.step g h).beginGate e n c =
      w.stepped ts' (ch.released n) n c.step
        (fun l => ({ (g l).gateBegun e n c.step with cur := some (c.gated lost) } : Lane).gateEnded e n (c.gated lost))
        fun f l => ((h f l).gateBegun e f c.step).driven (e.cfg f) true false := by
  rw [Work.beginGate, Work.gateOpened_stepped hp, hp.gateStep]
  dsimp only
  rw [if_pos hw]
  exact Work.endGate_stepped (c := c.gated lost) hr

theorem Work.endSourceDelay_at_once (hq : c.step.flags.quiet = false) : w.endSourceDelay e n c = w.beginGate e n c := by
  simp [Work.endSourceDelay, hq]

theorem Work.endSourceDelay_quiet (hq : c.step.flags.quiet = true) (hs : w.chain.isQuiet = true) :
    w.endSourceDelay e n c = (w.takeHold n).beginGate e n c := by
  have hs' : (w.takeHold n).chain.isQuiet = true := by rw [Work.takeHold_eq]; exact (w.chain.isQuiet_taken n).trans hs
  simp [Work.endSourceDelay, hq, hs']

theorem Work.endSourceDelay_busy (hq : c.step.flags.quiet = true) (hs : ¬ w.chain.isQuiet = true) :
    w.endSourceDelay e n c = w.takeHold n := by
  have hs' : ¬ (w.takeHold n).chain.isQuiet = true := by
    rw [Work.takeHold_eq]; exact fun h => hs ((w.chain.isQuiet_taken n).symm.trans h)
  simp [Work.endSourceDelay, hq, hs']

/-- The chain as GATE finds it when the source delay has run out (R51, R98): a QUIET step has its hold, and the chain is
quiet. -/
def Chain.Opens (ch : Chain) (n : LaneId) (c : CurStep) (ch' : Chain) : Prop :=
  (c.step.flags.quiet = false ∧ ch' = ch) ∨ (c.step.flags.quiet = true ∧ ch.isQuiet = true ∧ ch' = ch.taken n)

theorem Work.endSourceDelay_stepped {ch' : Chain} (ho : ch.Opens n c ch') :
    (w.stepped ts ch n c.step g h).endSourceDelay e n c = (w.stepped ts ch' n c.step g h).beginGate e n c := by
  rcases ho with ⟨hq, rfl⟩ | ⟨hq, hs, rfl⟩
  · exact Work.endSourceDelay_at_once hq
  · rw [Work.endSourceDelay_quiet hq (by rw [Work.stepped_chain]; exact hs), Work.takeHold_stepped]

/-- A lane of a step as SOURCE begins: SRC rises and C1 starts (R98, R141). -/
def Lane.sourceBegun (l : Lane) (e : Env) (a : LaneId) (r : StepRecord) : Lane :=
  { l.driven (e.cfg a) true false with c1 := Channel.startDown e.clock r.flags.coarse r.sourceDelay }

/-- The step in SOURCE. -/
def CurStep.sourced (c : CurStep) : CurStep := { c with phase := .source }

theorem Work.openSource_stepped :
    (w.stepped ts ch n c.step g h).openSource e n c =
      w.stepped ts ch n c.step (fun l => ({ g l with cur := some c.sourced } : Lane).sourceBegun e n c.step)
        fun f l => (h f l).sourceBegun e f c.step := by
  rw [Work.openSource, Work.setCur_stepped, Work.driveAll_stepped, Work.startEach_stepped]
  rfl

end Gate

/-! ### The events -/

/-- C1 expires (R117). -/
def Lane.c1Expired (l : Lane) : Lane := { l with c1 := l.c1.expire }

/-- C2 expires (R118). -/
def Lane.c2Expired (l : Lane) : Lane := { l with c2 := l.c2.expire }

section Events

variable {s : State} {ts : Vector Token 32} {ch : Chain} {n : LaneId} {c : CurStep} {lost : Bool}

theorem exec_sourceDelayExpiry (hc : (s.work.lane n).cur = some c) (hp : c.phase = .source)
    (hx : (s.work.lane n).c1.expiring = true) :
    exec (.sourceDelayExpiry n) s =
      .next
        { s with
          work := ((s.work.stepped s.work.tokens s.work.chain n c.step Lane.c1Expired fun _ => Lane.c1Expired).endSourceDelay
            s.env n c).finish s.env } := by
  have heach : s.work.startEach (stepLanes n c.step) Lane.c1Expired =
      s.work.stepped s.work.tokens s.work.chain n c.step Lane.c1Expired fun _ => Lane.c1Expired := by
    conv_lhs => rw [← s.work.stepped_id n c.step]
    exact Work.startEach_stepped _
  rw [← heach]
  change execSourceDelayExpiry n s = _
  simp only [execSourceDelayExpiry, onWork_eq, hc]
  rw [if_pos ⟨hp, hx⟩]
  rfl

theorem exec_gateExpiry (hc : (s.work.lane n).cur = some c) (hp : c.phase = .gate)
    (hx : (s.work.lane n).c2.expiring = true) :
    exec (.gateExpiry n) s =
      .next
        { s with
          work := ((s.work.stepped s.work.tokens s.work.chain n c.step Lane.c2Expired fun _ => Lane.c2Expired).endGate
            s.env n c).finish s.env } := by
  have heach : s.work.startEach (stepLanes n c.step) Lane.c2Expired =
      s.work.stepped s.work.tokens s.work.chain n c.step Lane.c2Expired fun _ => Lane.c2Expired := by
    conv_lhs => rw [← s.work.stepped_id n c.step]
    exact Work.startEach_stepped _
  rw [← heach]
  change execGateExpiry n s = _
  simp only [execGateExpiry, onWork_eq, hc]
  rw [if_pos ⟨hp, hx⟩]
  rfl

/-- A QUIET step takes its hold and waits while the chain is busy (R51, R98). -/
theorem exec_sourceDelayExpiry_waits (hrest : s.work.rested) (hc : (s.work.lane n).cur = some c) (hp : c.phase = .source)
    (hx : (s.work.lane n).c1.expiring = true) (hq : c.step.flags.quiet = true) (hs : ¬ s.work.chain.isQuiet = true) :
    exec (.sourceDelayExpiry n) s =
      .next
        { s with
          work := s.work.stepped s.work.tokens (s.work.chain.taken n) n c.step Lane.c1Expired fun _ => Lane.c1Expired } := by
  rw [exec_sourceDelayExpiry hc hp hx, Work.endSourceDelay_busy hq (by rw [Work.stepped_chain]; exact hs),
    Work.takeHold_stepped, Work.finish_rested (by rw [Work.stepped_wake]; exact hrest.1)]

theorem Work.Posts.expired (h : s.work.Posts n c ts lost) :
    (s.work.stepped s.work.tokens ch n c.step Lane.c1Expired fun _ => Lane.c1Expired).Posts n c ts lost := by
  refine h.congr Work.stepped_tokens fun m => ?_
  rw [Work.lane_stepped]
  by_cases hm : m = n
  · subst hm; rw [if_pos rfl]; rfl
  · rw [if_neg hm]
    split <;> rfl

/-- The source delay runs out and GATE begins (R98, R99). -/
theorem exec_sourceDelayExpiry_gates (hrest : s.work.rested) (hc : (s.work.lane n).cur = some c) (hp : c.phase = .source)
    (hx : (s.work.lane n).c1.expiring = true) (ho : s.work.chain.Opens n c ch) (hpost : s.work.Posts n c ts lost)
    (hw : c.step.gateWidth ≠ 0) :
    exec (.sourceDelayExpiry n) s =
      .next
        { s with
          work := s.work.stepped ts ch n c.step
            (fun l => { l.c1Expired.gateBegun s.env n c.step with cur := some (c.gated lost) })
            fun f l => l.c1Expired.gateBegun s.env f c.step } := by
  rw [exec_sourceDelayExpiry hc hp hx, Work.endSourceDelay_stepped ho, Work.beginGate_stepped hpost.expired hw,
    Work.finish_rested (by rw [Work.stepped_wake]; exact hrest.1)]

/-- The source delay runs out and a gate width of 0 ends the gate at once (R129). -/
theorem exec_sourceDelayExpiry_passes (hrest : s.work.rested) (hc : (s.work.lane n).cur = some c) (hp : c.phase = .source)
    (hx : (s.work.lane n).c1.expiring = true) (ho : s.work.chain.Opens n c ch) (hpost : s.work.Posts n c ts lost)
    (hw : c.step.gateWidth = 0) (hr : (c.gated lost).gateEnded.allRead = false) :
    exec (.sourceDelayExpiry n) s =
      .next
        { s with
          work := s.work.stepped ts (ch.released n) n c.step
            (fun l => ({ l.c1Expired.gateBegun s.env n c.step with cur := some (c.gated lost) } : Lane).gateEnded s.env n
              (c.gated lost))
            fun f l => (l.c1Expired.gateBegun s.env f c.step).driven (s.env.cfg f) true false } := by
  rw [exec_sourceDelayExpiry hc hp hx, Work.endSourceDelay_stepped ho, Work.beginGate_stepped_zero hpost.expired hw hr,
    Work.finish_rested (by rw [Work.stepped_wake]; exact hrest.1)]

/-- The gate ends with a RESULT still to come (R99, R118). -/
theorem exec_gateExpiry_waits (hrest : s.work.rested) (hc : (s.work.lane n).cur = some c) (hp : c.phase = .gate)
    (hx : (s.work.lane n).c2.expiring = true) (hr : c.gateEnded.allRead = false) :
    exec (.gateExpiry n) s =
      .next
        { s with
          work := s.work.stepped s.work.tokens (s.work.chain.released n) n c.step
            (fun l => l.c2Expired.gateEnded s.env n c) fun f l => l.c2Expired.driven (s.env.cfg f) true false } := by
  rw [exec_gateExpiry hc hp hx, Work.endGate_stepped hr, Work.finish_rested (by rw [Work.stepped_wake]; exact hrest.1)]

/-- The lanes after the READY that completes the pair: SOURCE begins on both (R96, R98, R141). -/
theorem Work.beginsSource_stepped {w : Work} {e : Env} {g : Lane → Lane} {h : LaneId → Lane → Lane} {r : StepRecord}
    (hr : c.step = r) (hd : r.sourceDelay ≠ 0) (x : Option CurStep) :
    (((w.stepped ts ch n r g h).setCur n x).onLane n fun l => { l with c3 := l.c3.stop }).beginSource e n c =
      w.stepped ts ch n r
        (fun l => ({ g l with cur := some c.sourced, c3 := (g l).c3.stop } : Lane).sourceBegun e n r)
        fun f l => (h f l).sourceBegun e f r := by
  subst hr
  rw [Work.setCur_stepped, Work.onLane_stepped, Work.beginSource, if_neg hd, Work.openSource_stepped]

end Events

end Sys2Proof.Machine
end

section
/-! PROOFS, family 05_lane_sequencing.md: a RESULT that is held as the gate ends, on a step that is not FUSED. -/

namespace Sys2Proof.Machine

section Single

variable {w : Work} {e : Env} {n f : LaneId} {c : CurStep} {r : StepRecord}

theorem Work.stepped_single (hf : fusedFollower n r = none) (ts : Vector Token 32) (ch : Chain) (g : Lane → Lane)
    (h : LaneId → Lane → Lane) :
    w.stepped ts ch n r g h = ({ w with tokens := ts, chain := ch } : Work).setLane n (g (w.lane n)) := by
  unfold Work.stepped
  rw [hf]
  rfl

theorem Work.stepped_pair (hf : fusedFollower n r = some f) (ts : Vector Token 32) (ch : Chain) (g : Lane → Lane)
    (h : LaneId → Lane → Lane) :
    w.stepped ts ch n r g h =
      (({ w with tokens := ts, chain := ch } : Work).setLane n (g (w.lane n))).setLane f (h f (w.lane f)) := by
  have hlane : (({ w with tokens := ts, chain := ch } : Work).onLane n g).lane f = w.lane f :=
    Work.lane_onLane_ne _ _ (fusedFollower_ne hf)
  unfold Work.stepped
  rw [hf]
  dsimp only
  rw [Work.onLane, hlane]
  rfl

theorem Lane.driven_auto {cfg : LaneConfig} (h : cfg.lineMode = .auto) (l : Lane) (src gate : Bool) :
    l.driven cfg src gate = { l with src, gate } := by
  rw [Lane.driven_eq, if_pos h]

/-- The fields of a lane that its delivery writes (R106, R107). -/
theorem Lane.delivered_fields (l : Lane) (halts : Bool) :
    l.delivered halts = { l with cur := none, pendingHold := false, run := (l.delivered halts).run } := by
  have hpending := l.delivered_pendingHold halts
  have hfields : l.delivered halts =
      { l with cur := none, pendingHold := (l.delivered halts).pendingHold, run := (l.delivered halts).run } := by
    unfold Lane.delivered Lane.afterDelivery
    dsimp only
    split
    · rfl
    · split
      · rfl
      · split <;> rfl
  rw [hpending] at hfields
  exact hfields

/-- A host's step on a lane in AUTO mode has completed: its lines are low, its nodes are released and its record is
delivered (R105, R106). -/
structure Work.CompletesHost (w v : Work) (e : Env) (n : LaneId) (c : CurStep) (x : Verdict) : Prop where
  results : v.results = w.results ++ [c.toRecord n x]
  lane : v.lane n = ({ w.lane n with src := false, gate := false } : Lane).delivered (verdictHalts (e.cfg n) x)
  others : ∀ m, m ≠ n → v.lane m = w.lane m
  holder : ∀ m, (v.node m).holder =
    if m ∈ c.nodes.map (·.1) ∧ (w.node m).holder = .lane n then .none else (w.node m).holder
  order : v.nodes.order = w.nodes.order
  holds : v.chain.holds = w.chain.holds
  tokens : v.tokens = w.tokens

theorem Work.complete_host {x : Verdict} (hf : c.step.flags.fused = false) (hauto : (e.cfg n).lineMode = .auto)
    (ho : c.step.origin = .host) (hthawed : (w.lane n).frozen = false) (hlen : w.results.length < 128) :
    w.CompletesHost (w.complete e n c x) e n c x := by
  obtain ⟨y, hy⟩ : ∃ y, y = w.onLane n fun l => { l with src := false, gate := false } := ⟨_, rfl⟩
  have hrel := y.releaseStep_releases e n c
  have hholder := y.holder_releaseStep e n c
  have hlow : w.driveAll e (stepLanes n c.step) false false = y := by
    rw [stepLanes_single hf, Work.driveAll_auto w false false hauto, hy]
  obtain ⟨u, hu⟩ : ∃ u, u = y.releaseStep e n c := ⟨_, rfl⟩
  rw [← hu] at hrel hholder
  have hlanen : u.lane n = { w.lane n with src := false, gate := false } := by rw [hrel.lane, hy, Work.lane_onLane]
  have hlanem : ∀ m, m ≠ n → u.lane m = w.lane m := fun m hm => by rw [hrel.lane, hy, Work.lane_onLane_ne _ _ hm]
  have hresults : u.results = w.results := by rw [hrel.results, hy]; rfl
  obtain ⟨d, hd⟩ : ∃ d : CurStep, d = { c with phase := .deliver, resume := none, record := some (c.toRecord n x) } :=
    ⟨_, rfl⟩
  obtain ⟨k, hk⟩ := Work.deliver_pair (w := u.setCur n (some d)) e (n := n) (c := d) (c.toRecord n x)
    (by rw [hd]; exact ho) (by rw [Work.lane_setCur, hlanen]; exact hthawed)
  rw [Work.endPair_single _ (by rw [hd]; exact hf), Work.setCur, Work.onLane_onLane] at hk
  have hdelivers : w.complete e n c x = (u.setCur n (some d)).deliver e n d (c.toRecord n x) := by
    rw [Work.complete, hlow, ← hu, Work.enterDeliver, ← hd]
    exact Work.offer_delivers e (by simp) (by rw [hd]) (by rw [hd]) (by exact hresults ▸ hlen)
  obtain ⟨z, hz⟩ : ∃ z, z = u.onLane n fun l => ({ l with cur := some d } : Lane).delivered (verdictHalts (e.cfg n) x) :=
    ⟨_, rfl⟩
  have hzn : z.lane n = ({ w.lane n with src := false, gate := false } : Lane).delivered (verdictHalts (e.cfg n) x) := by
    rw [hz, Work.lane_onLane, hlanen]; rfl
  have hzm : ∀ m, m ≠ n → z.lane m = w.lane m := fun m hm => by rw [hz, Work.lane_onLane_ne _ _ hm, hlanem m hm]
  have hzholder : ∀ m, (z.node m).holder =
      if m ∈ c.nodes.map (·.1) ∧ (w.node m).holder = .lane n then .none else (w.node m).holder := fun m => by
    rw [show z.node m = u.node m by rw [hz]; rfl, hholder m, hy]; rfl
  have hzorder : z.nodes.order = w.nodes.order := by rw [hz, Work.onLane_nodes, hrel.order, hy]; rfl
  have hzholds : z.chain.holds = w.chain.holds := by rw [hz, Work.onLane_chain, hrel.holds, hy]; rfl
  have hztokens : z.tokens = w.tokens := by rw [hz, Work.onLane_tokens, hrel.tokens, hy]; rfl
  have hverdict : (c.toRecord n x).verdict = x := rfl
  rw [hdelivers, Work.setCur, hk, hverdict, ← hz]
  exact ⟨congrArg (· ++ _) hresults, hzn, hzm, hzholder, hzorder, hzholds, hztokens⟩

theorem Work.finish_unclaimed_lists (ho : w.nodes.order = []) :
    (w.finish e).nodes.order = w.nodes.order ∧ (w.finish e).chain.holds = w.chain.holds := by
  by_cases hw : w.wake = true
  · rw [Work.finish_unclaimed ho hw, Work.serveSlots_eq]
    exact ⟨rfl, rfl⟩
  · rw [Work.finish_rested (by simpa using hw)]
    exact ⟨rfl, rfl⟩

theorem Work.CompletesHost.finish {v : Work} {x : Verdict} (h : w.CompletesHost v e n c x) (ho : w.nodes.order = []) :
    w.CompletesHost (v.finish e) e n c x := by
  have hvo : v.nodes.order = [] := h.order.trans ho
  obtain ⟨u, hu, hlanes, hresults, hnode⟩ := Work.finish_serves hvo e
  obtain ⟨-, htokens⟩ := Work.finish_unclaimed_keeps (e := e) hvo
  obtain ⟨horder, hholds⟩ := Work.finish_unclaimed_lists (e := e) hvo
  have hlane : ∀ m, u.lane m = v.lane m := fun m => congrArg (fun ls : Vector Lane 4 => ls[m.val]) hlanes
  rw [hu] at htokens horder hholds ⊢
  refine ⟨hresults.trans h.results, (hlane n).trans h.lane, fun m hm => (hlane m).trans (h.others m hm), fun m => ?_,
    horder.trans h.order, hholds.trans h.holds, htokens.trans h.tokens⟩
  obtain ⟨b, hb⟩ := hnode m
  rw [hb]
  exact h.holder m

end Single

section GateEnd

variable {s : State} {n : LaneId} {c : CurStep} {r : Reading}

/-- The lane of a step in AUTO mode as its gate ends with a RESULT held, before the evaluation (R99). -/
def Lane.gatePassed (l : Lane) (c : CurStep) : Lane :=
  { l.c2Expired with src := true, gate := false, cur := some c.gateEnded }

/-- The part as the gate ends with a RESULT held, before the evaluation (R99). -/
def Work.gatePassed (w : Work) (n : LaneId) (c : CurStep) : Work :=
  ({ w with chain := w.chain.released n } : Work).setLane n ((w.lane n).gatePassed c)

theorem CurStep.gateEnded_reading (hr : c.leader.held = some r) :
    ({ c.gateEnded with leader := { c.gateEnded.leader with reading := some r } } : CurStep) = c.gateEnded := by
  rw [← hr]; rfl

theorem exec_gateExpiry_reads (hc : (s.work.lane n).cur = some c) (hp : c.phase = .gate)
    (hx : (s.work.lane n).c2.expiring = true) (hf : c.step.flags.fused = false)
    (hauto : (s.env.cfg n).lineMode = .auto) (hr : c.leader.held = some r) :
    exec (.gateExpiry n) s =
      .next
        { s with
          work := ((s.work.gatePassed n c).evaluate s.env n
            { c.gateEnded with leader := { c.gateEnded.leader with reading := some r } }).finish s.env } := by
  have hread : c.gateEnded.allRead = true := by
    simp [CurStep.allRead, CurStep.gateEnded, SideState.takeHeld, hr, hf]
  rw [exec_gateExpiry hc hp hx, Work.endGate, Work.gateClosed_stepped, CurStep.gateEnded_reading hr,
    Work.stepped_single (fusedFollower_single hf), Lane.driven_auto hauto]
  dsimp only
  rw [if_pos hread]
  rfl

/-- The record and the lane of an attempt that is evaluated as the gate ends (R99, R101, R105). -/
theorem Work.gatePassed_delivers {w : Work} {e : Env} (hf : c.step.flags.fused = false) (hauto : (e.cfg n).lineMode = .auto)
    (hend : c.outcome e n r ≠ .fail ∨ c.attempt = c.step.repeats) (ho : c.step.origin = .host)
    (hz : (w.lane n).frozen = false) (hord : w.nodes.order = []) (hlen : w.results.length < 128) :
    ∃ v, ((w.gatePassed n c).evaluate e n
          { c.gateEnded with leader := { c.gateEnded.leader with reading := some r } }).finish e = v ∧
      v.results = w.results ++ [(c.gateEnded.judged e n r).toRecord n (c.outcome e n r).verdict] ∧
      v.lane n =
        { (w.lane n).c2Expired with
          cur := none, src := false, gate := false, pendingHold := false, run := (v.lane n).run } ∧
      n ∉ v.chain.holds ∧
      (∀ m, (v.node m).holder =
        if m ∈ c.nodes.map (·.1) ∧ (w.node m).holder = .lane n then .none else (w.node m).holder) ∧
      (∀ m, m ≠ n → v.lane m = w.lane m) ∧ v.tokens = w.tokens := by
  have hlane : (w.gatePassed n c).lane n = (w.lane n).gatePassed c := Work.lane_setLane _ _ _
  have hother : ∀ m, m ≠ n → (w.gatePassed n c).lane m = w.lane m := fun m hm => Work.lane_setLane_ne _ _ hm
  rw [Work.evaluate_ends (c := c.gateEnded) hf hend]
  have hdone := (Work.complete_host (w := w.gatePassed n c) (e := e) (n := n) (c := c.gateEnded.judged e n r)
    (x := (c.gateEnded.outcome e n r).verdict) hf hauto ho (by rw [hlane]; exact hz) hlen).finish hord
  refine ⟨_, rfl, hdone.results, ?_, ?_, hdone.holder, fun m hm => (hdone.others m hm).trans (hother m hm), hdone.tokens⟩
  · rw [hdone.lane, hlane]
    exact Lane.delivered_fields _ _
  · intro hmem
    rw [hdone.holds] at hmem
    exact w.chain.not_mem_released n hmem

/-- An earlier FAIL at the gate's end starts the next attempt with a FIXED settle that counts (R99, R103). -/
theorem Work.gatePassed_starts {w : Work} {e : Env} (hf : c.step.flags.fused = false) (hauto : (e.cfg n).lineMode = .auto)
    (hfail : c.outcome e n r = .fail) (hrep : c.attempt ≠ c.step.repeats) (had : c.step.flags.adaptive = false)
    (hset : c.step.settle ≠ 0) (htx : (w.lane n).tx.length < 32) (hrest : w.rested) :
    ((w.gatePassed n c).evaluate e n
        { c.gateEnded with leader := { c.gateEnded.leader with reading := some r } }).finish e =
      ({ w with chain := w.chain.released n } : Work).setLane n
        { (w.lane n).c2Expired with
          src := false, gate := false
          c0 := Channel.startDown e.clock c.step.flags.coarse (settleOf c.step.settle (c.attempt + 1))
          tx := (w.lane n).tx ++ [.setup c.step.tag (c.attempt + 1) c.step.function c.step.range c.step.stimulus]
          cur := some { (c.gateEnded.judged e n r).nextAttempt with phase := .settle } } := by
  have hlane : (w.gatePassed n c).lane n = (w.lane n).gatePassed c := Work.lane_setLane _ _ _
  rw [Work.evaluate_repeats (c := c.gateEnded) hf hfail hrep, Work.repeatStep_counts (c := c.gateEnded.judged e n r) hf had
    hset (by rw [hlane]; exact htx) hauto, Work.finish_rested (by exact hrest.1), Work.onLane, hlane, Work.gatePassed,
    Work.setLane_setLane]
  rfl

end GateEnd

end Sys2Proof.Machine
end

section
/-! PROOFS, family 05_lane_sequencing.md: the source delay, the gate and the report of quiet; O53. -/

namespace Sys2Proof.Machine

theorem CurStep.gateEnded_unread {c : CurStep}
    (hr : c.leader.held = none ∨ (c.step.flags.fused = true ∧ c.follower.held = none)) : c.gateEnded.allRead = false := by
  rcases hr with hr | ⟨hf, hr⟩
  · simp [CurStep.allRead, CurStep.gateEnded, SideState.takeHeld, hr]
  · simp [CurStep.allRead, CurStep.gateEnded, SideState.takeHeld, hr, hf]

theorem Lane.gateBegun_gateEnded (l : Lane) (e : Env) (n : LaneId) (c : CurStep) (r : StepRecord) (x : Option CurStep) :
    ({ l.gateBegun e n r with cur := x } : Lane).gateEnded e n c =
      ({ l with c2 := Channel.startDown e.clock r.flags.coarse r.gateWidth } : Lane).gateEnded e n c := by
  by_cases h : (e.cfg n).lineMode = .auto <;> simp [Lane.gateEnded, Lane.gateBegun, Lane.driven, h]

theorem Lane.gateBegun_driven (l : Lane) (e : Env) (f : LaneId) (r : StepRecord) (gate : Bool) :
    (l.gateBegun e f r).driven (e.cfg f) true gate =
      ({ l with c2 := Channel.startDown e.clock r.flags.coarse r.gateWidth } : Lane).driven (e.cfg f) true gate := by
  by_cases h : (e.cfg f).lineMode = .auto <;> simp [Lane.gateBegun, Lane.driven, h]

/-! ### READY on the link of either lane of a pair -/

theorem Work.owner_of_leader {w : Work} {n : LaneId} (h : leaderOf n = none) : w.owner n = (n, false) := by
  unfold Work.owner
  rw [h]
  split
  · simp_all
  · rfl

theorem SideState.ready_eq {x : SideState} (h : x.ready = true) : { x with ready := true } = x := by
  cases x; simp_all

section Ready

variable {s : State} {n f link : LaneId} {c : CurStep}

theorem Work.hunt_stepped (w : Work) (n : LaneId) (r : StepRecord) :
    w.hunt n = w.stepped w.tokens w.chain n r (fun l => { l with rx := .hunting }) fun _ l => l := by
  conv_lhs => rw [← w.stepped_id n r]
  exact Work.onLane_stepped _

theorem Work.hunt_stepped_follower {r : StepRecord} (hf : fusedFollower n r = some f) (w : Work) :
    w.hunt f = w.stepped w.tokens w.chain n r (fun l => l) fun _ l => { l with rx := .hunting } := by
  conv_lhs => rw [← w.stepped_id n r]
  exact Work.onLane_stepped_follower hf _

/-- The READY that completes the pair begins SOURCE on its lanes (R96, R98, R141). -/
theorem exec_ready_begins {side : Bool} {attempt : Byte} {g : Lane → Lane} {h : LaneId → Lane → Lane}
    (hrest : s.work.rested)
    (hhunt : s.work.hunt link = s.work.stepped s.work.tokens s.work.chain n c.step g h)
    (howner : (s.work.hunt link).owner link = (n, side)) (hcur : ((s.work.hunt link).lane n).cur = some c)
    (hp : c.phase = .readyWait) (ha : attempt.toNat = c.attempt) (hr : (c.side side).ready = false)
    (hall : (c.readied side).allReady = true) (hd : c.step.sourceDelay ≠ 0) :
    exec (.ready link c.step.tag attempt) s =
      .next
        { s with
          work := s.work.stepped s.work.tokens s.work.chain n c.step
            (fun l =>
              ({ g l with cur := some (c.readied side).sourced, c3 := (g l).c3.stop } : Lane).sourceBegun s.env n c.step)
            fun f l => (h f l).sourceBegun s.env f c.step } := by
  have hstep : (c.readied side).step = c.step := by cases side <;> rfl
  have hbegin := Work.beginsSource_stepped (w := s.work) (e := s.env) (ts := s.work.tokens) (ch := s.work.chain) (n := n)
    (g := g) (h := h) hstep hd (some (c.readied side))
  rw [← hhunt] at hbegin
  rw [exec_ready, Work.takeReady_begins howner hcur ⟨CurStep.matches_iff.2 ⟨rfl, ha⟩, hr, .inr (.inr hp)⟩ hp hall, hbegin,
    Work.finish_rested (by rw [Work.stepped_wake]; exact hrest.1)]

end Ready

/-! ### The report of quiet -/

/-- The FUSED step that has this lane for its follower, among the steps of these lanes. -/
def Work.ledBy (w : Work) (ns : List LaneId) (m : LaneId) : Option StepRecord :=
  match leaderOf m with
  | some a =>
    match (w.lane a).cur with
    | some c => if a ∈ ns ∧ c.step.flags.fused = true then some c.step else none
    | none => none
  | none => none

/-- A lane after quiet has been reported to it (R51, R99). -/
def Lane.quietGated (l : Lane) (e : Env) (a : LaneId) : Lane :=
  match l.cur with
  | some c => { l.gateBegun e a c.step with cur := some (c.gated c.overpost) }
  | none => l

/-- A lane after quiet has been reported to these lanes (R51, R99, R141). -/
def Work.afterQuiet (w : Work) (e : Env) (ns : List LaneId) (m : LaneId) : Lane :=
  if m ∈ ns then (w.lane m).quietGated e m
  else match w.ledBy ns m with
    | some r => (w.lane m).gateBegun e m r
    | none => w.lane m

/-- The lane's step waits in SOURCE for the report of quiet, with a gate to run out and no token to post; its follower
waits for no report of its own. -/
def Work.WaitsForQuiet (w : Work) (holds : List LaneId) (m : LaneId) : Prop :=
  ∃ c, (w.lane m).cur = some c ∧ c.phase = .source ∧ (∀ f, fusedFollower m c.step = some f → f ∉ holds) ∧
    c.step.postToken = none ∧ c.step.gateWidth ≠ 0

/-- The report of quiet to one lane. -/
def Work.reportTo (w : Work) (e : Env) (n : LaneId) : Work :=
  match (w.lane n).cur with
  | some c => if c.phase = .source then w.beginGate e n c else w
  | none => w

section Report

variable {w v : Work} {e : Env} {ns : List LaneId} {n m : LaneId}

theorem Work.reportQuiet_quiet (h : w.chain.isQuiet = true) :
    w.reportQuiet e = w.chain.holds.foldl (fun w n => w.reportTo e n) w := if_pos h

theorem Work.reportQuiet_busy (h : ¬ w.chain.isQuiet = true) : w.reportQuiet e = w := if_neg h

theorem Work.ledBy_eq_some {r : StepRecord} :
    w.ledBy ns m = some r ↔
      ∃ a c, a ∈ ns ∧ (w.lane a).cur = some c ∧ fusedFollower a c.step = some m ∧ c.step = r := by
  simp only [fusedFollower_leaderOf]
  unfold Work.ledBy
  split
  · next a ha =>
    split
    · next c hc => simp_all [and_assoc]
    · next hc => simp_all
  · next ha => simp_all

theorem Work.ledBy_eq_none :
    w.ledBy ns m = none ↔ ∀ a c, a ∈ ns → (w.lane a).cur = some c → fusedFollower a c.step ≠ some m := by
  rw [Option.eq_none_iff_forall_ne_some]
  refine ⟨fun h a c ha hc hf => h c.step (Work.ledBy_eq_some.2 ⟨a, c, ha, hc, hf, rfl⟩), fun h r hr => ?_⟩
  obtain ⟨a, c, ha, hc, hf, -⟩ := Work.ledBy_eq_some.1 hr
  exact h a c ha hc hf

theorem Work.afterQuiet_of_mem (h : m ∈ ns) : w.afterQuiet e ns m = (w.lane m).quietGated e m := if_pos h

theorem Work.afterQuiet_led {r : StepRecord} (h : m ∉ ns) (hr : w.ledBy ns m = some r) :
    w.afterQuiet e ns m = (w.lane m).gateBegun e m r := by
  simp only [Work.afterQuiet, if_neg h, hr]

theorem Work.afterQuiet_other (h : m ∉ ns) (hr : w.ledBy ns m = none) : w.afterQuiet e ns m = w.lane m := by
  simp only [Work.afterQuiet, if_neg h, hr]

theorem Lane.gateBegun_auto {a : LaneId} {r : StepRecord} (hauto : (e.cfg a).lineMode = .auto) (hw : r.gateWidth ≠ 0)
    (l : Lane) :
    l.gateBegun e a r =
      { l with src := true, gate := true, c2 := Channel.startDown e.clock r.flags.coarse r.gateWidth } := by
  have hrises : (r.gateWidth != 0) = true := by simpa using hw
  rw [Lane.gateBegun, Lane.driven_auto hauto, hrises]

theorem Work.afterQuiet_congr_lanes (h : v.lanes = w.lanes) : v.afterQuiet e ns m = w.afterQuiet e ns m := by
  simp only [Work.afterQuiet, Work.ledBy, Work.lane, h]

theorem Work.afterQuiet_congr_mem {ms : List LaneId} (h : ∀ a, a ∈ ns ↔ a ∈ ms) :
    w.afterQuiet e ns m = w.afterQuiet e ms m := by
  simp only [Work.afterQuiet, Work.ledBy, h]

/-- A further report changes the lanes of its own step alone. -/
theorem Work.afterQuiet_append {a : LaneId} {c : CurStep} (hc : (w.lane a).cur = some c) (hm : m ≠ a)
    (hf : fusedFollower a c.step ≠ some m) : w.afterQuiet e (ns ++ [a]) m = w.afterQuiet e ns m := by
  have hmem : m ∈ ns ++ [a] ↔ m ∈ ns := by simp [hm]
  have hled : w.ledBy (ns ++ [a]) m = w.ledBy ns m := by
    refine Option.ext fun r => ?_
    rw [Work.ledBy_eq_some, Work.ledBy_eq_some]
    refine ⟨fun ⟨b, d, hb, hd, hfb, hr⟩ => ⟨b, d, ?_, hd, hfb, hr⟩, fun ⟨b, d, hb, hd⟩ => ⟨b, d, by simp [hb], hd⟩⟩
    refine (List.mem_append.1 hb).resolve_right fun hba => ?_
    obtain rfl : b = a := List.mem_singleton.1 hba
    exact hf ((Option.some.inj (hd.symm.trans hc)) ▸ hfb)
  simp only [Work.afterQuiet, hmem, hled]

/-- The report of quiet begins GATE on the lanes of the step that waits (R51, R99). -/
theorem Work.reportTo_waits {c : CurStep} (hc : (w.lane n).cur = some c) (hp : c.phase = .source)
    (hpost : c.step.postToken = none) (hw : c.step.gateWidth ≠ 0) :
    w.reportTo e n =
      w.stepped w.tokens w.chain n c.step (fun l => { l.gateBegun e n c.step with cur := some (c.gated c.overpost) })
        fun f l => l.gateBegun e f c.step := by
  have hbegin := Work.beginGate_stepped (w := w) (e := e) (ts := w.tokens) (ts' := w.tokens) (ch := w.chain) (n := n)
    (c := c) (lost := c.overpost) (g := fun l => l) (h := fun _ l => l) (.inl ⟨hpost, Work.stepped_tokens.symm, rfl⟩) hw
  rw [Work.stepped_id] at hbegin
  rw [← hbegin]
  simp only [Work.reportTo, hc]
  exact if_pos hp

/-- A second report to a lane finds its step in GATE. -/
theorem Work.reportTo_gated {l : Lane} {c : CurStep} (hl : w.lane n = l.quietGated e n) (hc : l.cur = some c) :
    w.reportTo e n = w := by
  have hcur : (w.lane n).cur = some (c.gated c.overpost) := by rw [hl, Lane.quietGated, hc]
  simp only [Work.reportTo, hcur]
  exact if_neg (by simp [CurStep.gated])

theorem Work.foldl_reportTo {holds : List LaneId} (hh : ∀ m ∈ holds, w.WaitsForQuiet holds m) :
    ∀ ns : List LaneId, (∀ m ∈ ns, m ∈ holds) →
      ∃ v : Work, ns.foldl (fun w n => w.reportTo e n) w = v ∧ v = { w with lanes := v.lanes } ∧
        ∀ m, v.lane m = w.afterQuiet e ns m := by
  intro ns
  induction ns using List.reverseRecOn with
  | nil => exact fun _ => ⟨w, rfl, rfl, fun m => (Work.afterQuiet_other (by simp) (Work.ledBy_eq_none.2 (by simp))).symm⟩
  | append_singleton ns a ih =>
    intro hin
    obtain ⟨v, hfold, hv, hlane⟩ := ih fun m hm => hin m (by simp [hm])
    have ha : a ∈ holds := hin a (by simp)
    obtain ⟨c, hc, hp, hfollower, hpost, hw⟩ := hh a ha
    rw [List.foldl_append, hfold, List.foldl_cons, List.foldl_nil]
    by_cases hmem : a ∈ ns
    case pos =>
      rw [Work.reportTo_gated ((hlane a).trans (Work.afterQuiet_of_mem hmem)) hc]
      have hsame : ∀ b, b ∈ ns ↔ b ∈ ns ++ [a] := fun b => by
        rw [List.mem_append, List.mem_singleton]
        exact ⟨.inl, fun hb => hb.elim id fun hb => hb ▸ hmem⟩
      exact ⟨v, rfl, hv, fun m => (hlane m).trans (Work.afterQuiet_congr_mem hsame)⟩
    case neg =>
      have hnotled : ∀ m, (∀ b ∈ ns, ∀ d, (w.lane b).cur = some d → fusedFollower b d.step ≠ some m) → m ∉ ns →
          v.lane m = w.lane m := fun m hled hm =>
        (hlane m).trans (Work.afterQuiet_other hm (Work.ledBy_eq_none.2 fun b d hb hd => hled b hb d hd))
      have hva : v.lane a = w.lane a := hnotled a (fun b hb d hd hf => by
        obtain ⟨x, hx, -, hxf, -⟩ := hh b (hin b (by simp [hb]))
        exact hxf a ((Option.some.inj (hd.symm.trans hx)) ▸ hf) ha) hmem
      rw [Work.reportTo_waits (by rw [hva]; exact hc) hp hpost hw]
      refine ⟨_, rfl, ?_, fun m => ?_⟩
      · exact (Work.stepped_fields _ _ _ _ _ _ _).trans (congrArg (fun u : Work => ({ u with lanes := _ } : Work)) hv)
      · rw [Work.lane_stepped]
        by_cases hm : m = a
        · subst hm
          rw [if_pos rfl, hva, Work.afterQuiet_of_mem (by simp), Lane.quietGated, hc]
        · rw [if_neg hm]
          by_cases hf : fusedFollower a c.step = some m
          · have hmns : m ∉ ns := fun hmn => hfollower m hf (hin m (by simp [hmn]))
            have hvm : v.lane m = w.lane m := hnotled m (fun b hb d hd hfb => by
              have hba : b = a := Option.some.inj
                (((fusedFollower_leaderOf d.step).1 hfb).1.symm.trans ((fusedFollower_leaderOf c.step).1 hf).1)
              exact hmem (hba ▸ hb)) hmns
            rw [if_pos hf, hvm, Work.afterQuiet_led (r := c.step) (by simp [hmns, hm])
              (Work.ledBy_eq_some.2 ⟨a, c, by simp, hc, hf, rfl⟩)]
          · rw [if_neg hf, hlane, Work.afterQuiet_append hc hm hf]

/-- The report of quiet to every lane that waits for it (R51, R98). -/
theorem Work.reportQuiet_gates (hq : w.chain.isQuiet = true)
    (hh : ∀ m ∈ w.chain.holds, w.WaitsForQuiet w.chain.holds m) :
    ∃ v : Work, w.reportQuiet e = v ∧ v = { w with lanes := v.lanes } ∧
      ∀ m, v.lane m = w.afterQuiet e w.chain.holds m := by
  rw [Work.reportQuiet_quiet hq]
  exact Work.foldl_reportTo hh w.chain.holds fun m hm => hm

end Report

/-- The follower of a FUSED step stands behind its leader (chapter 7). -/
theorem fusedFollower_eq_succ {n f : LaneId} {r : StepRecord} (h : fusedFollower n r = some f) : f = n + 1 := by
  have hnext : ∀ n f : LaneId, leaderOf f = some n → f = n + 1 := by decide
  exact hnext n f ((fusedFollower_leaderOf r).1 h).1

theorem leaderOf_cases :
    ∀ m : LaneId, (leaderOf m = none ∧ ¬ (m = 1 ∨ m = 3)) ∨ (leaderOf m = some (m - 1) ∧ (m = 1 ∨ m = 3)) := by decide

/-- Settles O53: each event rewrites the lanes of its step together, one lane or a pair; a RESULT that is held is judged
as the gate ends, and the report of quiet goes to the lanes that hold in turn. -/
theorem sourceAndGateFollowTheirChannels : Obligations.SourceAndGateFollowTheirChannels := by
  refine ⟨fun s n c hrest hc hf hauto => ?single, fun s n f c hpair hrest hc hf => ?pair, ?quiet⟩
  case single =>
    intro l expired started silent taken released sideWait
    have hcfg : (s.env.cfg n).lineMode = .auto := hauto
    have hsingle := Work.stepped_single (w := s.work) (fusedFollower_single (n := n) hf)
    refine ⟨fun hp hx => ⟨fun hq hn hs => ?waits, fun ts lost hpost => ?goes⟩,
      fun hp hx => ⟨fun hheld => ?ends, fun r hheld => ?reads⟩⟩
    case waits =>
      rw [exec_sourceDelayExpiry_waits hrest hc hp hx hq (mt (Chain.isQuiet_iff _).1 hs), hsingle, Chain.taken_none hn]
      rfl
    case goes =>
      intro gated passed goes
      have hgates : ∀ ch, s.work.chain.Opens n c ch → c.step.gateWidth ≠ 0 → goes ch gated := fun ch ho hw => by
        have hrises : (c.step.gateWidth != 0) = true := by simpa using hw
        have hexec := exec_sourceDelayExpiry_gates hrest hc hp hx ho hpost hw
        rw [hsingle, Lane.gateBegun, Lane.driven_auto hcfg, hrises] at hexec
        exact hexec
      have hpasses : ∀ ch, s.work.chain.Opens n c ch → c.step.gateWidth = 0 → c.leader.held = none →
          goes (ch.released n) passed := fun ch ho hw hheld => by
        have hexec := exec_sourceDelayExpiry_passes hrest hc hp hx ho hpost hw
          (CurStep.gateEnded_unread (c := c.gated lost) (.inl hheld))
        rw [hsingle, Lane.gateEnded, Lane.driven_auto hcfg, Lane.gateBegun, Lane.driven_auto hcfg, hw] at hexec
        exact hexec
      refine ⟨fun hw => ⟨fun hq => hgates _ (.inl ⟨hq, rfl⟩) hw, fun hq hn hs => ?_⟩,
        fun hw hheld => ⟨fun hq hn => ?_, fun hq hn hs => ?_⟩⟩
      · have h := hgates _ (.inr ⟨hq, (Chain.isQuiet_iff _).2 hs, rfl⟩) hw
        rwa [Chain.taken_none hn] at h
      · have h := hpasses _ (.inl ⟨hq, rfl⟩) hw hheld
        rwa [Chain.released_none hn] at h
      · have h := hpasses _ (.inr ⟨hq, (Chain.isQuiet_iff _).2 hs, rfl⟩) hw hheld
        rwa [Chain.released_taken hn] at h
    case ends =>
      rw [exec_gateExpiry_waits hrest hc hp hx (CurStep.gateEnded_unread (.inl hheld)), hsingle, Lane.gateEnded,
        Lane.driven_auto hcfg]
      rfl
    case reads =>
      intro x
      have hexec := exec_gateExpiry_reads hc hp hx hf hcfg hheld
      refine ⟨fun hend ho hz hord hlen => ?_, fun hfail hrep had hset htx => ?_⟩
      · obtain ⟨v, hv, hresults, hlane, hholds, hholder, hother, htokens⟩ :=
          Work.gatePassed_delivers (r := r) hf hcfg hend ho hz hord hlen
        rw [hv] at hexec
        rw [CurStep.toRecord_judged _ _ _ (by exact hf)] at hresults
        refine ⟨v, hexec, hresults.trans ?_, hlane, hholds, hholder, hother, htokens⟩
        rw [show c.gateEnded.step.origin = .host from ho]
        rfl
      · intro settle
        rw [hexec, Work.gatePassed_starts hf hcfg hfail hrep had hset htx hrest]
        rfl
  case pair =>
    intro l m expired started lines silent taken released sideWait pair
    have hfollower : fusedFollower n c.step = some f := fusedFollower_of_pair hpair hf
    have hpairs := Work.stepped_pair (w := s.work) hfollower
    have hlines : ∀ a src gate k, lines a src gate k = k.driven (s.env.cfg a) src gate := fun a src gate k =>
      (Lane.driven_eq k _ src gate).symm
    have hunread : (c.leader.held = none ∨ c.follower.held = none) →
        c.leader.held = none ∨ (c.step.flags.fused = true ∧ c.follower.held = none) := fun h => h.imp_right fun h => ⟨hf, h⟩
    refine ⟨fun attempt hp ha hd => ?readied, fun hp hx => ⟨fun hq hn hs => ?waits, fun ts lost hpost => ⟨fun hw => ?gates,
      fun hw hheld hq hn => ?passes⟩⟩, fun hp hx hheld => ?ends⟩
    case readied =>
      intro begun led follows
      refine ⟨fun hl hm => ?_, fun hl hm hrun => ?_⟩
      · have hbegun : (c.readied false).sourced = begun := by
          simp only [begun, SideState.ready_eq hm]
          rfl
        have hall : (c.readied false).allReady = true := by simp [CurStep.allReady, CurStep.readied, CurStep.onSide, hm]
        have hexec := exec_ready_begins (side := false) hrest (s.work.hunt_stepped n c.step)
          (Work.owner_of_leader (leaderOf_leader hfollower)) (by rw [Work.lane_hunt]; exact hc) hp ha hl hall hd
        rw [hpairs, hbegun] at hexec
        simp only [pair, hlines]
        exact hexec
      · have hbegun : (c.readied true).sourced = begun := by
          simp only [begun, SideState.ready_eq hl]
          rfl
        have hne := (fusedFollower_ne hfollower).symm
        have hleader := ((fusedFollower_leaderOf c.step).1 hfollower).1
        have hall : (c.readied true).allReady = true := by simp [CurStep.allReady, CurStep.readied, CurStep.onSide, hl]
        have hexec := exec_ready_begins (side := true) hrest (s.work.hunt_stepped_follower hfollower)
          (Work.owner_hunt_leader hrun hleader) (by rw [Work.lane_hunt_ne _ hne]; exact hc) hp ha hm hall hd
        rw [hpairs, hbegun] at hexec
        simp only [pair, hlines]
        exact hexec
    case waits =>
      have hexec := exec_sourceDelayExpiry_waits hrest hc hp hx hq (mt (Chain.isQuiet_iff _).1 hs)
      rw [hpairs, Chain.taken_none hn] at hexec
      exact hexec
    case gates =>
      intro gated
      have hrises : (c.step.gateWidth != 0) = true := by simpa using hw
      have hgates : ∀ ch, s.work.chain.Opens n c ch → gated ch := fun ch ho => by
        have hexec := exec_sourceDelayExpiry_gates hrest hc hp hx ho hpost hw
        rw [hpairs, Lane.gateBegun, Lane.gateBegun, hrises] at hexec
        simp only [gated, pair, hlines]
        exact hexec
      refine ⟨fun hq => hgates _ (.inl ⟨hq, rfl⟩), fun hq hn hs => ?_⟩
      have h := hgates _ (.inr ⟨hq, (Chain.isQuiet_iff _).2 hs, rfl⟩)
      rwa [Chain.taken_none hn] at h
    case passes =>
      have hexec := exec_sourceDelayExpiry_passes hrest hc hp hx (.inl ⟨hq, rfl⟩) hpost hw
        (CurStep.gateEnded_unread (c := c.gated lost) (hunread hheld))
      rw [hpairs, Chain.released_none hn, Lane.gateBegun_gateEnded, Lane.gateBegun_driven, hw] at hexec
      simp only [pair, hlines]
      exact hexec
    case ends =>
      have hexec := exec_gateExpiry_waits hrest hc hp hx (CurStep.gateEnded_unread (hunread hheld))
      rw [hpairs] at hexec
      simp only [pair, hlines]
      exact hexec
  case quiet =>
    intro s hrest hholds leads gated
    have hwaits : ∀ m ∈ s.work.chain.holds, s.work.WaitsForQuiet s.work.chain.holds m := fun m hm => by
      obtain ⟨c, hc, hp, hfused, hpost, hw, -⟩ := hholds m hm
      refine ⟨c, hc, hp, fun f hf => ?_, hpost, hw⟩
      obtain ⟨-, hnext, -⟩ := hfused ((fusedFollower_leaderOf c.step).1 hf).2
      rw [fusedFollower_eq_succ hf]
      exact hnext
    have hleads : ∀ m, leads m = s.work.ledBy s.work.chain.holds m := fun m => by
      rcases leaderOf_cases m with ⟨hnone, hno⟩ | ⟨hsome, hodd⟩
      · simp only [leads, Work.ledBy, hnone, hno, false_and, if_false]
        split <;> rfl
      · rcases hcur : (s.work.lane (m - 1)).cur with _ | c
        · simp only [leads, Work.ledBy, hsome, hcur]
        · simp only [leads, Work.ledBy, hsome, hodd, hcur, true_and]
    have hgated : ∀ v : Work, (∀ m, v.lane m = s.work.afterQuiet s.env s.work.chain.holds m) → gated v := by
      refine fun v hv m => ⟨fun hm hled => ?_, fun hm r hled => ?_, fun hm c hc => ?_⟩
      · exact (hv m).trans (Work.afterQuiet_other hm ((hleads m).symm.trans hled))
      · have hby := (hleads m).symm.trans hled
        obtain ⟨a, c, ha, hc, hf, rfl⟩ := Work.ledBy_eq_some.1 hby
        obtain ⟨d, hd, -, hfused, -, hw, -⟩ := hholds a ha
        obtain rfl : d = c := Option.some.inj (hd.symm.trans hc)
        obtain ⟨-, -, hauto⟩ := hfused ((fusedFollower_leaderOf d.step).1 hf).2
        have hcfg : (s.env.cfg (a + 1)).lineMode = .auto := hauto
        rw [← fusedFollower_eq_succ hf] at hcfg
        rw [hv m, Work.afterQuiet_led hm hby, Lane.gateBegun_auto hcfg hw]
        rfl
      · obtain ⟨d, hd, -, -, -, hw, hauto⟩ := hholds m hm
        obtain rfl : d = c := Option.some.inj (hd.symm.trans hc)
        rw [hv m, Work.afterQuiet_of_mem hm, Lane.quietGated, hc]
        dsimp only
        rw [Lane.gateBegun_auto (e := s.env) hauto hw]
        rfl
    refine ⟨fun ends hshift ht => ⟨fun hidle => ?_, fun hbusy => ?_⟩, fun n t hcalm hi ht hshift hp hholder hdue => ?_⟩
    · obtain ⟨v, hv, hframe, hlane⟩ := Work.reportQuiet_gates (w := s.work.shiftFreed) (e := s.env)
        ((Chain.isQuiet_iff _).2 ⟨hidle, rfl⟩) hwaits
      refine ⟨v, ?_, hframe, hgated v hlane⟩
      rw [exec_shiftAbandonedEnd hshift ht, Work.finishQuiet_rested (w := s.work.shiftFreed) hrest.1, hv,
        Work.finish_rested (by rw [hframe]; exact hrest.1)]
    · rw [exec_shiftAbandonedEnd hshift ht, Work.finishQuiet_rested (w := s.work.shiftFreed) hrest.1,
        Work.reportQuiet_busy (w := s.work.shiftFreed) fun h => hbusy ((Chain.isQuiet_iff _).1 h).1,
        Work.finish_rested (w := s.work.shiftFreed) hrest.1]
      rfl
    · obtain ⟨hwake, hfreed, ho, hq, hd⟩ := hcalm
      obtain ⟨u, hfin, huframe, hun, hum⟩ := Work.finish_closedNode (n := n) ⟨hwake, hfreed⟩ ho hq hd s.env
      rw [hi, if_neg (by simp [hdue]), List.append_nil] at huframe
      have hchain : u.chain = { s.work.chain with inflight := [] } := by rw [huframe]; rfl
      have hlanes : u.lanes = s.work.lanes := by rw [huframe]
      have hlane : ∀ m, u.lane m = s.work.lane m := fun m => congrArg (fun ls : Vector Lane 4 => ls[m.val]) hlanes
      obtain ⟨v, hv, hvframe, hvlane⟩ := Work.reportQuiet_gates (w := u) (e := s.env)
        ((Chain.isQuiet_iff _).2 (by rw [hchain]; exact ⟨rfl, hshift⟩)) (by
          rw [hchain]
          intro m hm
          obtain ⟨c, hc, hrest⟩ := hwaits m hm
          exact ⟨c, (congrArg Lane.cur (hlane m)).trans hc, hrest⟩)
      have hnodes : v.nodes = u.nodes := by rw [hvframe]
      have hmatch : (s.work.closedNode n).checkHolder s.env (s.work.node n).holder = s.work.closedNode n := by
        cases hh : (s.work.node n).holder with
        | lane a => exact absurd hh (hholder a)
        | none => rfl
        | manual => rfl
      refine ⟨v, ?_, ?_, ?_, fun m hm => ?_, hgated v fun m => ?_⟩
      · rw [exec_closeComplete hi ht hp, hmatch, Work.finishQuiet, hfin, hv,
          Work.finish_rested (by rw [hvframe, huframe]; exact hwake)]
      · rw [hnodes]
        exact hvframe.trans (congrArg (fun x : Work => ({ x with lanes := v.lanes } : Work)) huframe)
      · rw [Work.node_congr hnodes, hun]
        simp [hdue]
      · rw [Work.node_congr hnodes, hum m hm]
      · rw [hvlane, hchain]
        exact Work.afterQuiet_congr_lanes hlanes

end Sys2Proof.Machine
end
